-- ==== Sys2Proof/Word.lean ====
section
/-!
DEFINITION. The word types of the core's interface and data paths.

The item word is 136 bits (R71), the event word 200 bits (R76), the response 6 bits (R78), a sample
index `TSW` = 64 bits (R9, R20) and a frame's value 8 bits (R20). Arithmetic on sample indices is on
mathematical integers (R10, R81), so a sample index is read out of its register with `toNat` before
anything is computed from it.
-/

namespace Sys2Proof

/-- A sample index: a timestamp or one end of a span, `TSW` = 64 bits wide (R9). -/
abbrev Sample := BitVec 64

/-- The value of one frame (R20: `byte` in 0..255). -/
abbrev Byte := BitVec 8

/-- One input item as it comes from the host (R71). -/
abbrev ItemWord := BitVec 136

/-- One event as it goes to the host (R76). -/
abbrev EventWord := BitVec 200

end Sys2Proof
end

