-- ==== Sys2Proof/Config.lean ====
section
/-!
DEFINITION. What one core of this hardware has fixed: the set of timing profiles, and the parameters
that the spec leaves OPEN, as constants without a body. (The constants with a value, R8, stand in
`Sys2Proof/Machine/Params.lean`.)
-/

namespace Sys2Proof

/-- The two device timing profiles (R8 `PROFILES`, R31: `blaster` = 0, `smartdevice` = 1). -/
inductive Profile where
  | blaster
  | smartdevice
deriving DecidableEq, Repr

/-- `BLOCK_CAP` (R9, R163, D4) is OPEN: unbounded, or finite and then at least 11. This constant is the
open part: `none` for an unbounded block buffer, `some k` for a capacity of `11 + k` frames. It has no
body, so every claim holds for every capacity the spec allows. Log entry 3. -/
opaque Config.blockCapExtra : Option Nat

/-- What stands in the 64-bit `val` field of an event word when the event's value needs more than 64
bits: the spec states no result there (R76 writes `zext_64(val)`, which exists only for a value below
2^64). A free value: it has no body. Log entry 5. -/
opaque Config.wideVal : Nat → BitVec 64

/-- `BLOCK_CAP`: how many frames the block buffer holds, `none` for unbounded (R9, R163; D4: "Any finite
value must be at least 11"). -/
def Config.blockCap : Option Nat := Config.blockCapExtra.map (11 + ·)

end Sys2Proof
end

