-- ==== Sys2Proof/Syntax.lean ====
section
/-!
DEFINITION. The instructions: one constructor per row of `spec/opcode_table.json`.

The first four rows are the input items (R71 to R75), what a host sends. The other eleven are the
transition rows (R83): a BIT item, or an ERR item, TOGETHER with the framer state `FS` that selects the
rule. `FS` is not in the item word, so a word decodes to one of the first four constructors only.
-/

namespace Sys2Proof

/-- The entry mode (R32: `raw` = 0, `pre` = 1). -/
inductive Mode where
  | raw
  | pre
deriving DecidableEq, Repr

/-- The subtype of a bit-stream Error (R75: `Phase` = 0, `Invalid` = 1). -/
inductive ErrorSubtype where
  | phase
  | invalid
deriving DecidableEq, Repr

/-- The framer state `FS` (R20, R28): the five values the document lists, in its order. -/
inductive FramerState where
  | idle
  | data
  | frameStop
  | frameStop2
  | blockStop
deriving DecidableEq, Repr

/-- One constructor per row of the opcode table. A bit value `v` is `false` for 0 and `true` for 1. -/
inductive Instr where
  /-- `CFG`: configure the session (R72, R111). -/
  | cfg (profile : Profile) (mode : Mode) (rate : BitVec 64)
  /-- `EDGE`: observe one signal edge at sample index `t` (R73, R121). -/
  | edge (t : Sample)
  /-- `BIT`: feed one classified bit with its span (R74, R140). -/
  | bit (v : Bool) (ss es : Sample)
  /-- `ERR`: feed one bit-stream Error with its span (R75, R141). -/
  | err (subtype : ErrorSubtype) (ss es : Sample)
  /-- `BIT0.Idle`: start of a frame (R142). -/
  | bit0Idle (ss es : Sample)
  /-- `BIT1.Idle`: idle line (R143). -/
  | bit1Idle (ss es : Sample)
  /-- `BIT0.Data`: a data bit 0 (R144). -/
  | bit0Data (ss es : Sample)
  /-- `BIT1.Data`: a data bit 1 (R144). -/
  | bit1Data (ss es : Sample)
  /-- `BIT1.FrameStop`: a valid stop bit (R147). -/
  | bit1FrameStop (ss es : Sample)
  /-- `BIT0.FrameStop`: framing error (R148). -/
  | bit0FrameStop (ss es : Sample)
  /-- `BIT1.FrameStop2`: a spacer bit (R149). -/
  | bit1FrameStop2 (ss es : Sample)
  /-- `BIT0.FrameStop2`: next frame without a spacer (R150). -/
  | bit0FrameStop2 (ss es : Sample)
  /-- `BIT1.BlockStop`: the block terminator (R151). -/
  | bit1BlockStop (ss es : Sample)
  /-- `BIT0.BlockStop`: next frame after a spacer (R152). -/
  | bit0BlockStop (ss es : Sample)
  /-- `ERR.any`: an Error in any framer state (R153). -/
  | errAny (subtype : ErrorSubtype) (ss es : Sample)
deriving DecidableEq, Repr

end Sys2Proof
end

