-- ==== Sys2Proof/WellFormed.lean ====
section
/-!
DEFINITION. Which terms of `Instr` are items a host can send.

Every operand has the width of its field by its type, so the one check is the kind of term: a
transition row carries the selecting state `FS`, which is not in the item word (R83), so it is no item
by itself.
-/

namespace Sys2Proof

/-- The input item whose word a row is a case of (R83): a row `BITv.<state>` is the item `BIT v`, the row
`ERR.any` is the item `ERR`, an item is itself. -/
def Instr.item : Instr → Instr
  | .cfg p m r => .cfg p m r
  | .edge t => .edge t
  | .bit v ss es => .bit v ss es
  | .err u ss es => .err u ss es
  | .bit0Idle ss es => .bit false ss es
  | .bit1Idle ss es => .bit true ss es
  | .bit0Data ss es => .bit false ss es
  | .bit1Data ss es => .bit true ss es
  | .bit1FrameStop ss es => .bit true ss es
  | .bit0FrameStop ss es => .bit false ss es
  | .bit1FrameStop2 ss es => .bit true ss es
  | .bit0FrameStop2 ss es => .bit false ss es
  | .bit1BlockStop ss es => .bit true ss es
  | .bit0BlockStop ss es => .bit false ss es
  | .errAny u ss es => .err u ss es

/-- The framer state that selects a transition row (the table's `FS` field); `none` for an item and for
`ERR.any`, which is taken in every state. -/
def Instr.selector : Instr → Option FramerState
  | .cfg _ _ _ => none
  | .edge _ => none
  | .bit _ _ _ => none
  | .err _ _ _ => none
  | .bit0Idle _ _ => some .idle
  | .bit1Idle _ _ => some .idle
  | .bit0Data _ _ => some .data
  | .bit1Data _ _ => some .data
  | .bit1FrameStop _ _ => some .frameStop
  | .bit0FrameStop _ _ => some .frameStop
  | .bit1FrameStop2 _ _ => some .frameStop2
  | .bit0FrameStop2 _ _ => some .frameStop2
  | .bit1BlockStop _ _ => some .blockStop
  | .bit0BlockStop _ _ => some .blockStop
  | .errAny _ _ _ => none

/-- A term is well formed when it is an item of the input stream: one that a word stands for. -/
def Instr.wellFormed (i : Instr) : Bool := decide (i.item = i)

end Sys2Proof
end

