-- ==== Sys2Proof/Decode.lean ====
section
/-!
DEFINITION. The decoder and the encoder of the item word (R71 to R75, R84, R85).

The decoder is total on 136-bit words: it gives an item, or rejects the word by name, `ReservedOpcode`
before `ReservedField` (R79).
-/

namespace Sys2Proof

/-- `item[135:132]`, the item kind (R71). -/
def itemOp (w : ItemWord) : BitVec 4 := w.extractLsb' 132 4

/-- `item[131:128]`, the small operands (R71). -/
def itemArg (w : ItemWord) : BitVec 4 := w.extractLsb' 128 4

/-- `item[127:64]`, the first operand (R71). -/
def itemA (w : ItemWord) : BitVec 64 := w.extractLsb' 64 64

/-- `item[63:0]`, the second operand (R71). -/
def itemB (w : ItemWord) : BitVec 64 := w.extractLsb' 0 64

/-- Why a word is no item (R79, reasons 5 and 6). -/
inductive DecodeError where
  /-- `op` is not 1, 2, 3 or 4 (R84). -/
  | reservedOpcode
  /-- A field that must be 0 is not 0 (R85). -/
  | reservedField
deriving DecidableEq, Repr

/-- What a word stands for. -/
inductive Decoded where
  | item (i : Instr)
  | rejected (e : DecodeError)
deriving DecidableEq, Repr

/-- The `profile` field (R72: 0 = `blaster`, 1 = `smartdevice`). -/
def profileOf (b : Bool) : Profile := if b then .smartdevice else .blaster

/-- The `mode` field (R72: 0 = `raw`, 1 = `pre`). -/
def modeOf (b : Bool) : Mode := if b then .pre else .raw

/-- The `subtype` field (R75: 0 = `Phase`, 1 = `Invalid`). -/
def subtypeOf (b : Bool) : ErrorSubtype := if b then .invalid else .phase

/-- `i` where the reserved fields are zero, else the rejection of R85. -/
def ifReservedZero (reservedZero : Bool) (i : Instr) : Decoded :=
  if reservedZero then .item i else .rejected .reservedField

/-- The decoder (R71 to R75, R84, R85). -/
def decode (w : ItemWord) : Decoded :=
  if itemOp w = 1#4 then
    ifReservedZero ((itemArg w).extractLsb' 2 2 == 0#2 && itemB w == 0#64)
      (.cfg (profileOf ((itemArg w).getLsbD 0)) (modeOf ((itemArg w).getLsbD 1)) (itemA w))
  else if itemOp w = 2#4 then
    ifReservedZero (itemArg w == 0#4 && itemB w == 0#64) (.edge (itemA w))
  else if itemOp w = 3#4 then
    ifReservedZero ((itemArg w).extractLsb' 1 3 == 0#3)
      (.bit ((itemArg w).getLsbD 0) (itemA w) (itemB w))
  else if itemOp w = 4#4 then
    ifReservedZero ((itemArg w).extractLsb' 1 3 == 0#3)
      (.err (subtypeOf ((itemArg w).getLsbD 0)) (itemA w) (itemB w))
  else .rejected .reservedOpcode

/-- The decoder's answer as an instruction, if it gives one. -/
def Decoded.instr? : Decoded → Option Instr
  | .item i => some i
  | .rejected _ => none

/-- The instruction the decoder reads from an instruction whose bits are `w`, numbered as
`spec/opcode_table.json` numbers them. The table's row is one 136-bit word, transferred whole (R51), and
its bit `k` is `item[k]`; every bit from `nbits` up is 0. -/
def decodeTableWord (nbits w : Nat) : Option Instr :=
  (decode (BitVec.ofNat 136 (w % 2 ^ nbits))).instr?

/-- The `arg` nibble whose bit 0 is `b0` and whose other bits are 0. -/
def nibble1 (b0 : Bool) : BitVec 4 := if b0 then 1#4 else 0#4

/-- The `arg` nibble whose bits 1 and 0 are `b1` and `b0` and whose other bits are 0. -/
def nibble2 (b1 b0 : Bool) : BitVec 4 := (if b1 then 2#4 else 0#4) ||| nibble1 b0

/-- The four parts of an item word put together (R71: `op ++ arg ++ a ++ b`). -/
def itemWord (op arg : BitVec 4) (a b : BitVec 64) : ItemWord := op ++ arg ++ a ++ b

/-- The `profile` bit (R72). -/
def profileBit : Profile → Bool
  | .blaster => false
  | .smartdevice => true

/-- The `mode` bit (R72). -/
def modeBit : Mode → Bool
  | .raw => false
  | .pre => true

/-- The `subtype` bit (R75). -/
def subtypeBit : ErrorSubtype → Bool
  | .phase => false
  | .invalid => true

/-- The word of a BIT item (R74, format B). -/
def encodeBit (v : Bool) (ss es : Sample) : ItemWord := itemWord 3#4 (nibble1 v) ss es

/-- The word of an ERR item (R75, format X). -/
def encodeErr (u : ErrorSubtype) (ss es : Sample) : ItemWord :=
  itemWord 4#4 (nibble1 (subtypeBit u)) ss es

/-- The encoder: the word of an item (R72 to R75; R88 gives `arg` = `mode*2 + profile` for CFG). A
transition row has the word of the item it is a case of (the table's `match`). -/
def encode : Instr → ItemWord
  | .cfg p m r => itemWord 1#4 (nibble2 (modeBit m) (profileBit p)) r 0#64
  | .edge t => itemWord 2#4 0#4 t 0#64
  | .bit v ss es => encodeBit v ss es
  | .err u ss es => encodeErr u ss es
  | .bit0Idle ss es => encodeBit false ss es
  | .bit1Idle ss es => encodeBit true ss es
  | .bit0Data ss es => encodeBit false ss es
  | .bit1Data ss es => encodeBit true ss es
  | .bit1FrameStop ss es => encodeBit true ss es
  | .bit0FrameStop ss es => encodeBit false ss es
  | .bit1FrameStop2 ss es => encodeBit true ss es
  | .bit0FrameStop2 ss es => encodeBit false ss es
  | .bit1BlockStop ss es => encodeBit true ss es
  | .bit0BlockStop ss es => encodeBit false ss es
  | .errAny u ss es => encodeErr u ss es

end Sys2Proof
end

