-- ==== Sys2Proof/Machine/State.lean ====
section
/-!
DEFINITION. The state of the core (R20), the values its streams carry, its reset (R221), and the reasons
a step of the model can stop.

The fields from `session` to `bb` are the spec's whole state, in the order of R20's table. The last two,
`inp` and `out`, are the MODEL's own: the three streams of R70, held as data so that a step, which sees
only the state, can take its item from somewhere and deliver its events and its response (log entry 1).
The core has no addressable memory and no program counter (R28, R37): State has neither.
-/

namespace Sys2Proof.Machine

/-- `SESSION` (R20, R30). -/
inductive Session where
  | unconfigured
  | running
  | halted
deriving DecidableEq, Repr

/-- What `classifyInterval` says of a half-cycle (R13, R105). -/
inductive HalfCycleKind where
  | active
  | inactive
  | error
deriving DecidableEq, Repr

/-- `PK`, the pending half-cycle (R20, R23): three values, never `Error`. -/
inductive PendingKind where
  | none
  | active
  | inactive
deriving DecidableEq, Repr

/-- A frame record of the block buffer (R20: `(byte, ss, es)`). -/
structure Frame where
  byte : Byte
  ss : Sample
  es : Sample
deriving DecidableEq, Repr

/-- The nineteen kinds of event, in the order of their codes (R77). -/
inductive EventKind where
  | rawBit
  | startBit
  | dataBit
  | stopBit
  | spacerBit
  | blockEnd
  | frame
  | framingError
  | blockError
  | decodeAbort
  | block
  | badLength
  | badChecksum
  | goodChecksum
  | blockType
  | blockTypeName
  | unknownType
  | checksumField
  | dataByte
deriving DecidableEq, Repr

/-- One event, `NAME(ss, es, val)` (R76). `val` is the number the rule gives; its 64-bit field in the
event word is `Event.word`'s business. -/
structure Event where
  kind : EventKind
  ss : Sample
  es : Sample
  val : Nat
deriving DecidableEq, Repr

/-- The six causes of the error taxonomy (R196), in the order of their codes 1 to 6. -/
inductive Cause where
  | configurationError
  | halfCycleError
  | framingError
  | badLength
  | badChecksum
  | unknownBlockType
deriving DecidableEq, Repr

/-- The reasons for which the CORE refuses an item (R79), in the order of their numbers 1 to 7. A refused
item is answered on the response stream and the core goes on: this is no stop of the model. -/
inductive RefuseReason where
  | notConfigured
  | alreadyConfigured
  | halted
  | wrongMode
  | reservedOpcode
  | reservedField
  | blockFull
deriving DecidableEq, Repr

/-- The response to one item (R7, R78). -/
inductive Response where
  | ok
  | fault (c : Cause)
  | refused (r : RefuseReason)
deriving DecidableEq, Repr

/-- What the host supplies, in order: an item word, or one assertion of the reset input (R70, R220). -/
inductive Input where
  | item (w : ItemWord)
  | reset
deriving DecidableEq, Repr

/-- What the core delivers, in order: an event, or the response that closes an item (R70). -/
inductive Output where
  | event (e : Event)
  | response (r : Response)
deriving DecidableEq, Repr

/-- The machine. -/
structure State where
  /-- `SESSION` (R30). -/
  session : Session
  /-- `PROFILE` (R31). -/
  profile : Profile
  /-- `MODE` (R32). -/
  mode : Mode
  /-- `RATE` in Hz, `RATE_W` = 64 bits (R33). -/
  rate : BitVec 64
  /-- `AHC`, `activeHalfCycle` in sample ticks, `TSW` = 64 bits (R34). -/
  ahc : BitVec 64
  /-- `IHC`, `inactiveHalfCycle` in sample ticks (R34). -/
  ihc : BitVec 64
  /-- `MARGIN` in sample ticks (R34). -/
  margin : BitVec 64
  /-- `E1V`: `E1` holds an edge (R22). -/
  e1v : Bool
  /-- `E1`: the most recent edge (R22). -/
  e1 : Sample
  /-- `E2`: the edge before `E1` (R22). -/
  e2 : Sample
  /-- `PK`: the pending half-cycle (R23). -/
  pk : PendingKind
  /-- `FS`: the framer state (R28). -/
  fs : FramerState
  /-- `FB_CNT`, 4 bits: how many bits the frame buffer holds (R24). -/
  fbCnt : BitVec 4
  /-- `FB_BITS`, 9 bits: bit `i` is the `i`-th buffered bit (R24). -/
  fbBits : BitVec 9
  /-- `FB_SS`: start sample of the frame in progress (R24). -/
  fbSs : Sample
  /-- `FB_ES`: end sample of the last buffered bit (R24). -/
  fbEs : Sample
  /-- `BB`: the block buffer, frames in reception order (R25). -/
  bb : List Frame
  /-- The model's own: what the host has supplied and the core has not consumed yet, next first. -/
  inp : List Input
  /-- The model's own: all the core has delivered so far, oldest first. -/
  out : List Output
deriving DecidableEq, Repr

/-- The machine right after reset (R221), with nothing supplied and nothing delivered. -/
def State.reset : State where
  session := .unconfigured
  profile := .blaster
  mode := .raw
  rate := 0#64
  ahc := 0#64
  ihc := 0#64
  margin := 0#64
  e1v := false
  e1 := 0#64
  e2 := 0#64
  pk := .none
  fs := .idle
  fbCnt := 0#4
  fbBits := 0#9
  fbSs := 0#64
  fbEs := 0#64
  bb := []
  inp := []
  out := []

/-- Why the model stops: two states that no run from reset reaches (R39) and to which the spec gives no
behaviour. (The core's own fatal error is not here: it is a next state, R190.) -/
inductive Fault where
  /-- Raised by the data-bit rule in `Data` with `FB_CNT` above 8 (R144 writes positions 1 to 8 only; U18
  calls such a count unreachable). Safe: no effect is invented. Log entry 6. -/
  | frameBufferOverrun
  /-- Raised by the block terminator in `BlockStop` with an empty block buffer, where `BB[0]` does not
  exist (U4: unreachable, "it needs no behaviour"). Safe: no effect is invented. Log entry 6. -/
  | emptyBlock
deriving DecidableEq, Repr

/-- Why the model gives a term no meaning in a state. (The core's own refusals are not here: a refused
item is answered and the core goes on, R79.) -/
inductive Refusal where
  /-- An instruction that has no meaning in the model yet, by its mnemonic. No arm raises it. Safe. -/
  | notModelled (mnemonic : String)
  /-- Raised by a transition row `BITv.<state>` run in a framer state that selects another row (R83, R154:
  `FS` is part of the row). No item word decodes to such a term, so no step raises it. Safe. Log entry 4. -/
  | rowNotSelected (row : FramerState)
deriving DecidableEq, Repr

end Sys2Proof.Machine
end

