-- ==== Sys2Proof/Machine/Params.lean ====
section
/-!
DEFINITION. The parameters that the document fixes (R8, R101), as constants.
-/

namespace Sys2Proof.Machine

/-- `MIN_RATE` in Hz (R8, R110). -/
def minRate : Nat := 16000

/-- `US_SCALE`: the denominator of the threshold arithmetic (R9, R102). -/
def usScale : Nat := 10000000

/-- The constant `A10` in tenths of a microsecond: the active half-cycle (R101). -/
def tenthsActive : Profile → Nat
  | .blaster => 1250
  | .smartdevice => 1130

/-- The constant `I10` in tenths of a microsecond: the inactive half-cycle (R101). -/
def tenthsInactive : Profile → Nat
  | .blaster => 2500
  | .smartdevice => 2270

/-- The constant `M10` in tenths of a microsecond: the margin (R101). -/
def tenthsMargin : Profile → Nat
  | .blaster => 625
  | .smartdevice => 565

/-- `DATA_BITS`: data bits per frame (R8). -/
def dataBits : Nat := 8

/-- `CK_INIT`: the start value of the checksum accumulator (R8, R173). -/
def checksumInit : Int := 255

/-- One row of the table of known block types (R8): its type byte, its name and its frame count. -/
structure KnownType where
  byte : Byte
  name : String
  frames : Nat
deriving DecidableEq, Repr

/-- `KNOWN_TYPES` (R8, D33): one row. -/
def knownTypes : List KnownType := [⟨0x02#8, "TAGGER-STATUS", 11⟩]

/-- The row of a type byte, if it is known. -/
def knownType? (t : Byte) : Option KnownType := knownTypes.find? (fun k => k.byte == t)

end Sys2Proof.Machine
end

