-- ==== Sys2Proof/Machine/Ops.lean ====
section
/-!
DEFINITION. The operations that the meanings share: delivering events and the response (R70, R76, R78),
taking the next input (R6, R220), the buffer operations of BitFramer (R145, R146, R160 to R163), the
legality tests of an item (R79), taking the one fatal error (R190) and the way out of it (R208, R220).
-/

namespace Sys2Proof.Machine

/-- `emit NAME(ss, es, val)` (R11, R76): one event at the end of the event stream. -/
def State.emit (e : Event) (s : State) : State := { s with out := s.out ++ [.event e] }

/-- A list of events, emitted in its order. -/
def State.emitAll (es : List Event) (s : State) : State := { s with out := s.out ++ es.map .event }

/-- The response that closes an item, delivered after the item's events (R70, R78). -/
def State.respond (r : Response) (s : State) : State := { s with out := s.out ++ [.response r] }

/-- The host supplies one more input, after those already supplied. -/
def State.supply (i : Input) (s : State) : State := { s with inp := s.inp ++ [i] }

/-- Take the next input: it is consumed once and never looked at again (R56). -/
def fetch (s : State) : Option (Input × State) :=
  match s.inp with
  | [] => none
  | i :: rest => some (i, { s with inp := rest })

/-! ## Reset and the fatal error -/

/-- One assertion of the reset input (R220, R221): every state element at its reset value, no event, no
response. What is already delivered stays delivered, what is supplied behind the reset stays supplied. -/
def State.assertReset (s : State) : State := { State.reset with inp := s.inp, out := s.out }

/-- TAKING THE EXCEPTION. ConfigurationError (R190, R201): `SESSION <- Halted`, nothing else of the core
is written, no event, the response is FAULT with cause 1. The only way out is reset (R208). -/
def raiseConfigurationError (s : State) : State :=
  ({ s with session := .halted } : State).respond (.fault .configurationError)

/-! ## The legality tests of an item -/

/-- The four kinds of item (R83). -/
inductive ItemKind where
  | cfg
  | edge
  | bit
  | err
deriving DecidableEq, Repr

/-- The refusal that a legal word of kind `k` meets before its rule runs, if any, in the priority of R79
(R87, R112): Halted, NotConfigured, AlreadyConfigured, WrongMode. -/
def itemRefusal (k : ItemKind) (s : State) : Option RefuseReason :=
  match s.session, k with
  | .halted, _ => some .halted
  | .unconfigured, .cfg => none
  | .unconfigured, .edge => some .notConfigured
  | .unconfigured, .bit => some .notConfigured
  | .unconfigured, .err => some .notConfigured
  | .running, .cfg => some .alreadyConfigured
  | .running, .edge => if s.mode = .pre then some .wrongMode else none
  | .running, .bit => if s.mode = .raw then some .wrongMode else none
  | .running, .err => if s.mode = .raw then some .wrongMode else none

/-- What the rule of an item gives before the response is made: a new state, a refusal by the core (then
nothing is written, R7), or a stop of the model. -/
abbrev RuleResult := Host.Outcome State Fault RefuseReason

/-- Close the item that began in `s`: OK after its rule's events, or REFUSED with `s` unchanged (R7, R78). -/
def complete (s : State) : RuleResult → Host.Outcome State Fault Refusal
  | .next t => .next (t.respond .ok)
  | .refused r => .next (s.respond (.refused r))
  | .fault f => .fault f

/-- An item of kind `k`: its legality tests first (R200), then its rule. -/
def runItem (k : ItemKind) (rule : State → RuleResult) (s : State) : Host.Outcome State Fault Refusal :=
  match itemRefusal k s with
  | some r => .next (s.respond (.refused r))
  | none => complete s (rule s)

/-- A transition row of BIT: the item's legality tests first (R200), then the row's own selector, the
framer state (R83), then its rule. -/
def runRow (row : FramerState) (rule : State → RuleResult) (s : State) :
    Host.Outcome State Fault Refusal :=
  match itemRefusal .bit s with
  | some r => .next (s.respond (.refused r))
  | none => if s.fs = row then complete s (rule s) else .refused (.rowNotSelected row)

/-- The refusal reason of a word that is no item (R79, R84, R85). -/
def decodeReason : DecodeError → RefuseReason
  | .reservedOpcode => .reservedOpcode
  | .reservedField => .reservedField

/-- A word that is no item: refused by name in every session state, nothing changes (R84, R85). -/
def refuseWord (e : DecodeError) (s : State) : State := s.respond (.refused (decodeReason e))

/-! ## The buffers of BitFramer -/

/-- `ClearFrame()` (R160). -/
def State.clearFrame (s : State) : State :=
  { s with fbCnt := 0#4, fbBits := 0#9, fbSs := 0#64, fbEs := 0#64 }

/-- `ClearBlock()` (R162). -/
def State.clearBlock (s : State) : State := { s with bb := [] }

/-- `append(BB, (byte, ss, es))` (R161). -/
def State.appendFrame (f : Frame) (s : State) : State := { s with bb := s.bb ++ [f] }

/-- `FS <- q`. -/
def State.goTo (q : FramerState) (s : State) : State := { s with fs := q }

/-- `StartFrame(ss, es)` (R146). -/
def State.startFrame (ss es : Sample) (s : State) : State :=
  ({ s with fbCnt := 1#4, fbBits := 0#9, fbSs := ss, fbEs := es, fs := .data } : State).emit
    ⟨.startBit, ss, es, 0⟩

/-- `FB_BITS[i] <- v`. -/
def setFrameBit (bits : BitVec 9) (i : Nat) (v : Bool) : BitVec 9 :=
  if v then bits ||| (1#9 <<< i) else bits &&& ~~~(1#9 <<< i)

/-- `PackByte()` (R145): the vector `FB_BITS[8:1]`, whose bit 0 is the first data bit received (R50). -/
def packByte (bits : BitVec 9) : Byte := bits.extractLsb' 1 8

/-- Whether a block buffer of `n` frames is full at capacity `cap` (R163). -/
def blockFull (cap : Option Nat) (n : Nat) : Bool :=
  match cap with
  | none => false
  | some c => n == c

end Sys2Proof.Machine
end

