-- ==== Sys2Proof/Machine/Operands.lean ====
section
/-!
DEFINITION. Operand assembly (R80 to R82): what the rules compute from the fields of an item.
-/

namespace Sys2Proof.Machine

/-- A threshold register's value: `(rate * c10) // 10_000_000`, formed exactly and divided once (R80, R102).
The register is `TSW` = 64 bits wide and the value always fits (each `c10` is below 10_000_000). -/
def threshold (c10 : Nat) (rate : BitVec 64) : BitVec 64 :=
  BitVec.ofNat 64 (rate.toNat * c10 / usScale)

/-- The interval length `n = t - E1` as a signed mathematical integer, never reduced (R81, R108). -/
def intervalLength (t e1 : Sample) : Int := (t.toNat : Int) - (e1.toNat : Int)

/-- The value of a Bit as a number. -/
def bitVal (v : Bool) : Nat := if v then 1 else 0

/-- The number of an Error's subtype in DECODE_ABORT (R77, D30: 0 = `Phase`, 1 = `Invalid`). -/
def subtypeVal : ErrorSubtype → Nat
  | .phase => 0
  | .invalid => 1

/-- The `val` of a DATA_BYTE event: index and byte packed (R82, R178). -/
def dataByteVal (index : Nat) (byte : Byte) : Nat := index * 256 + byte.toNat

end Sys2Proof.Machine
end

