-- ==== Sys2Proof/Machine/BlockDecoder.lean ====
section
/-!
DEFINITION. BlockDecoder: `DecodeBlock` (R170) with its length check (R172), checksum check (R173, R174) and
field extraction (R176 to R178). It reads a sealed block handed to it by value and writes no state (R26):
here it is the list of events it emits. A sealed block is given as its first frame and the others (R39: no
sealed block is empty).
-/

namespace Sys2Proof.Machine

/-- `checkLength(type, n)` (R172). -/
def checkLength (type : Byte) (n : Nat) (bss bes : Sample) : List Event :=
  match knownType? type with
  | some k => if n = k.frames then [] else [⟨.badLength, bss, bes, n⟩]
  | none => []

/-- The accumulator after the pass: from `CK_INIT`, each byte subtracted in frame order, a signed integer
that never wraps (R173). -/
def checksumAcc (frames : List Frame) : Int :=
  frames.foldl (fun acc f => acc - (f.byte.toNat : Int)) checksumInit

/-- `ck = abs(acc) & 0xFF` (R173). -/
def checksumValue (frames : List Frame) : Nat := (checksumAcc frames).natAbs % 256

/-- `checkChecksum(F)`, the verdict (R174): invalid over the block's span, valid over the checksum byte's. -/
def checkChecksum (frames : List Frame) (last : Frame) (bss bes : Sample) : List Event :=
  if checksumValue frames = 0 then [⟨.goodChecksum, last.ss, last.es, 0⟩]
  else [⟨.badChecksum, bss, bes, checksumValue frames⟩]

/-- The labels of the block-type byte (R176). -/
def typeLabels (first : Frame) : List Event :=
  ⟨.blockType, first.ss, first.es, first.byte.toNat⟩ ::
    match knownType? first.byte with
    | some k => [⟨.blockTypeName, first.ss, first.es, k.byte.toNat⟩]
    | none => [⟨.unknownType, first.ss, first.es, first.byte.toNat⟩]

/-- The label of the checksum byte (R177). -/
def checksumLabel (last : Frame) : Event := ⟨.checksumField, last.ss, last.es, last.byte.toNat⟩

/-- The labels of the payload bytes, the first of the list having index `n` (R178). -/
def payloadLabels : Nat → List Frame → List Event
  | _, [] => []
  | n, f :: fs => ⟨.dataByte, f.ss, f.es, dataByteVal n f.byte⟩ :: payloadLabels (n + 1) fs

/-- The checksum frame: the last frame of the block, the first one if it is alone (R177). -/
def lastFrame (first : Frame) (rest : List Frame) : Frame := rest.getLastD first

/-- Field extraction (R176, R177, R178), in the order of R179. The payload is every frame strictly between
the first and the last. -/
def extractFields (first : Frame) (rest : List Frame) : List Event :=
  typeLabels first ++ checksumLabel (lastFrame first rest) :: payloadLabels 0 rest.dropLast

/-- `DecodeBlock(F, bss, bes)` (R170, R171, R179): the BLOCK event, then the three operations in order, none
of which aborts another. -/
def decodeBlock (first : Frame) (rest : List Frame) (bss bes : Sample) : List Event :=
  ⟨.block, bss, bes, rest.length + 1⟩ ::
    (checkLength first.byte (rest.length + 1) bss bes
      ++ checkChecksum (first :: rest) (lastFrame first rest) bss bes
      ++ extractFields first rest)

end Sys2Proof.Machine
end

