-- ==== Sys2Proof/Machine/BitFramer.lean ====
section
/-!
DEFINITION. BitFramer: the rules of its transitions (R142 to R153), the dispatch on `(FS, v)` (R140), and the
meanings of the items BIT and ERR and of the eleven transition rows.

A rule below is what the transition does to the state; the meaning of an item or of a row adds the item's
legality tests before it and the response after it. EDGE runs the same rules (R128).
-/

namespace Sys2Proof.Machine

/-! ## The rules -/

/-- (`Idle`, 0): start of a frame (R142). -/
def ruleIdle0 (ss es : Sample) (s : State) : RuleResult := .next (s.startFrame ss es)

/-- (`Idle`, 1): idle line, ignored (R143). -/
def ruleIdle1 (s : State) : RuleResult := .next s

/-- (`Data`, any): a data bit (R144). The position written is `FB_CNT` before the step; a count above 8 is
unreachable (R39) and names no position between 1 and 8. -/
def ruleData (v : Bool) (ss es : Sample) (s : State) : RuleResult :=
  if dataBits < s.fbCnt.toNat then .fault .frameBufferOverrun
  else .next (({ s with
      fbBits := setFrameBit s.fbBits s.fbCnt.toNat v
      fbEs := es
      fbCnt := s.fbCnt + 1#4
      fs := if s.fbCnt.toNat = dataBits then .frameStop else s.fs } : State).emit
    ⟨.dataBit, ss, es, bitVal v⟩)

/-- (`FrameStop`, 1): a valid stop bit (R147), refused with nothing written when the block buffer is full at
capacity `cap` (R163). -/
def ruleFrameStop1 (cap : Option Nat) (ss es : Sample) (s : State) : RuleResult :=
  if blockFull cap s.bb.length then .refused .blockFull
  else .next (((((s.emit ⟨.stopBit, ss, es, 1⟩).emit
      ⟨.frame, s.fbSs, es, (packByte s.fbBits).toNat⟩).appendFrame
      ⟨packByte s.fbBits, s.fbSs, es⟩).clearFrame).goTo .frameStop2)

/-- The events of a framing error (R148): FRAMING_ERROR over the frame buffer's span and, when the block
holds frames, BLOCK_ERROR from the first frame's start with the number of frames lost. -/
def framingEvents (fbSs fbEs : Sample) (bb : List Frame) : List Event :=
  ⟨.framingError, fbSs, fbEs, 0⟩ ::
    match bb with
    | [] => []
    | f :: fs => [⟨.blockError, f.ss, fbEs, fs.length + 1⟩]

/-- (`FrameStop`, 0): framing error (R148). -/
def ruleFrameStop0 (s : State) : RuleResult :=
  .next ((((s.emitAll (framingEvents s.fbSs s.fbEs s.bb)).clearBlock).clearFrame).goTo .idle)

/-- (`FrameStop2`, 1): a spacer bit (R149). -/
def ruleFrameStop21 (ss es : Sample) (s : State) : RuleResult :=
  .next ((s.emit ⟨.spacerBit, ss, es, 1⟩).goTo .blockStop)

/-- (`FrameStop2`, 0): next frame without a spacer (R150). -/
def ruleFrameStop20 (ss es : Sample) (s : State) : RuleResult := .next (s.startFrame ss es)

/-- (`BlockStop`, 1): the block terminator (R151): BLOCK_END, the block sealed and decoded over the span from
its first frame's start to the terminator's end (R164), the block buffer cleared. -/
def ruleBlockStop1 (ss es : Sample) (s : State) : RuleResult :=
  match s.bb with
  | [] => .fault .emptyBlock
  | f :: fs =>
    .next ((((s.emit ⟨.blockEnd, ss, es, 1⟩).emitAll (decodeBlock f fs f.ss es)).clearBlock).goTo .idle)

/-- (`BlockStop`, 0): next frame after a spacer (R152). -/
def ruleBlockStop0 (ss es : Sample) (s : State) : RuleResult := .next (s.startFrame ss es)

/-- `FramerError(subtype, ss, es)`: an Error in any state (R153). -/
def framerError (u : ErrorSubtype) (ss es : Sample) (s : State) : State :=
  (((s.emit ⟨.decodeAbort, ss, es, subtypeVal u⟩).clearBlock).clearFrame).goTo .idle

/-- `FramerBit(v, ss, es)`: the rule selected by `(FS, v)` (R140, R154), at capacity `cap`. -/
def framerBit (cap : Option Nat) (v : Bool) (ss es : Sample) (s : State) : RuleResult :=
  match s.fs, v with
  | .idle, false => ruleIdle0 ss es s
  | .idle, true => ruleIdle1 s
  | .data, _ => ruleData v ss es s
  | .frameStop, true => ruleFrameStop1 cap ss es s
  | .frameStop, false => ruleFrameStop0 s
  | .frameStop2, true => ruleFrameStop21 ss es s
  | .frameStop2, false => ruleFrameStop20 ss es s
  | .blockStop, true => ruleBlockStop1 ss es s
  | .blockStop, false => ruleBlockStop0 ss es s

/-! ## The items -/

/-- `BIT v, ss, es` (R140). -/
def execBit (v : Bool) (ss es : Sample) (s : State) : Host.Outcome State Fault Refusal :=
  runItem .bit (framerBit Config.blockCap v ss es) s

/-- `ERR subtype, ss, es` (R141). -/
def execErr (u : ErrorSubtype) (ss es : Sample) (s : State) : Host.Outcome State Fault Refusal :=
  runItem .err (fun t => .next (framerError u ss es t)) s

/-! ## The transition rows -/

/-- `BIT0.Idle` (R142). -/
def execBit0Idle (ss es : Sample) (s : State) : Host.Outcome State Fault Refusal :=
  runRow .idle (ruleIdle0 ss es) s

/-- `BIT1.Idle` (R143). The span is not read: the bit is ignored. -/
def execBit1Idle (s : State) : Host.Outcome State Fault Refusal :=
  runRow .idle ruleIdle1 s

/-- `BIT0.Data` (R144). -/
def execBit0Data (ss es : Sample) (s : State) : Host.Outcome State Fault Refusal :=
  runRow .data (ruleData false ss es) s

/-- `BIT1.Data` (R144). -/
def execBit1Data (ss es : Sample) (s : State) : Host.Outcome State Fault Refusal :=
  runRow .data (ruleData true ss es) s

/-- `BIT1.FrameStop` (R147). -/
def execBit1FrameStop (ss es : Sample) (s : State) : Host.Outcome State Fault Refusal :=
  runRow .frameStop (ruleFrameStop1 Config.blockCap ss es) s

/-- `BIT0.FrameStop` (R148). The span of the offending bit appears in no event and is not read. -/
def execBit0FrameStop (s : State) : Host.Outcome State Fault Refusal :=
  runRow .frameStop ruleFrameStop0 s

/-- `BIT1.FrameStop2` (R149). -/
def execBit1FrameStop2 (ss es : Sample) (s : State) : Host.Outcome State Fault Refusal :=
  runRow .frameStop2 (ruleFrameStop21 ss es) s

/-- `BIT0.FrameStop2` (R150). -/
def execBit0FrameStop2 (ss es : Sample) (s : State) : Host.Outcome State Fault Refusal :=
  runRow .frameStop2 (ruleFrameStop20 ss es) s

/-- `BIT1.BlockStop` (R151). -/
def execBit1BlockStop (ss es : Sample) (s : State) : Host.Outcome State Fault Refusal :=
  runRow .blockStop (ruleBlockStop1 ss es) s

/-- `BIT0.BlockStop` (R152). -/
def execBit0BlockStop (ss es : Sample) (s : State) : Host.Outcome State Fault Refusal :=
  runRow .blockStop (ruleBlockStop0 ss es) s

/-- `ERR.any` (R153): taken in every framer state. -/
def execErrAny (u : ErrorSubtype) (ss es : Sample) (s : State) : Host.Outcome State Fault Refusal :=
  runItem .err (fun t => .next (framerError u ss es t)) s

end Sys2Proof.Machine
end

