-- ==== Sys2Proof/Machine/Comparator.lean ====
section
/-!
DEFINITION. Configuration and the half-cycle comparator: `classifyInterval` (R105 to R109) and the CFG item
(R110, R111).
-/

namespace Sys2Proof.Machine

/-- The half-open window `[ref - margin, ref + margin)` on integers, without wrap-around (R106). -/
def inWindow (ref margin : BitVec 64) (n : Int) : Bool :=
  decide ((ref.toNat : Int) - margin.toNat ≤ n) && decide (n < (ref.toNat : Int) + margin.toNat)

/-- `classifyInterval(n)` (R105), the `Inactive` window tested first (R107). -/
def classifyInterval (ahc ihc margin : BitVec 64) (n : Int) : HalfCycleKind :=
  if inWindow ihc margin n then .inactive
  else if inWindow ahc margin n then .active
  else .error

/-- The registers a successful CFG writes (R111): profile, mode, rate and the three thresholds of R102. -/
def configure (profile : Profile) (mode : Mode) (rate : BitVec 64) (s : State) : State :=
  { s with
    session := .running
    profile := profile
    mode := mode
    rate := rate
    ahc := threshold (tenthsActive profile) rate
    ihc := threshold (tenthsInactive profile) rate
    margin := threshold (tenthsMargin profile) rate }

/-- `CFG profile, mode, rate` (R111). -/
def execCfg (profile : Profile) (mode : Mode) (rate : BitVec 64) (s : State) :
    Host.Outcome State Fault Refusal :=
  match itemRefusal .cfg s with
  | some r => .next (s.respond (.refused r))
  | none =>
    if rate.toNat < minRate then .next (raiseConfigurationError s)
    else .next ((configure profile mode rate s).respond .ok)

end Sys2Proof.Machine
end

