-- ==== Sys2Proof/Machine/EdgeClassifier.lean ====
section
/-!
DEFINITION. EdgeTimingClassifier: the EDGE item (R121 to R130), the pairing of half-cycles into Bits, and the
hand-off to BitFramer inside the same step (R128).
-/

namespace Sys2Proof.Machine

/-- `E2 <- E1 ; E1 <- t` (R121). -/
def State.advanceEdges (t : Sample) (s : State) : State := { s with e2 := s.e1, e1 := t }

/-- `PK <- k`. -/
def State.setPending (k : PendingKind) (s : State) : State := { s with pk := k }

/-- A matching pair (R124): PK is consumed, RAW_BIT over `[E2, t]` is emitted, and BitFramer takes the Bit. `E2`
is the value from before the step; BitFramer reads and writes none of the edge history (R26). -/
def pairComplete (cap : Option Nat) (v : Bool) (t : Sample) (s : State) : RuleResult :=
  framerBit cap v s.e2 t
    (((s.setPending .none).advanceEdges t).emit ⟨.rawBit, s.e2, t, bitVal v⟩)

/-- A half-cycle without a partner (R125). -/
def leavePending (k : PendingKind) (t : Sample) (s : State) : RuleResult :=
  .next ((s.setPending k).advanceEdges t)

/-- An `Error` half-cycle (R123): PK is dropped and BitFramer takes an Error, subtype `Invalid`, over `[E1, t]`. -/
def errorHalfCycle (t : Sample) (s : State) : RuleResult :=
  .next (framerError .invalid s.e1 t ((s.setPending .none).advanceEdges t))

/-- The first edge after reset (R122). -/
def firstEdge (t : Sample) (s : State) : RuleResult := .next { s with e1v := true, e1 := t }

/-- The kind of the half-cycle that the edge `t` ends (R105, R108). -/
def edgeKind (t : Sample) (s : State) : HalfCycleKind :=
  classifyInterval s.ahc s.ihc s.margin (intervalLength t s.e1)

/-- The rule of EDGE (R121), at block capacity `cap`. -/
def observeEdge (cap : Option Nat) (t : Sample) (s : State) : RuleResult :=
  if s.e1v = false then firstEdge t s
  else
    match edgeKind t s with
    | .error => errorHalfCycle t s
    | .active => if s.pk = .active then pairComplete cap false t s else leavePending .active t s
    | .inactive => if s.pk = .inactive then pairComplete cap true t s else leavePending .inactive t s

/-- `EDGE t` (R121). -/
def execEdge (t : Sample) (s : State) : Host.Outcome State Fault Refusal :=
  runItem .edge (observeEdge Config.blockCap t) s

end Sys2Proof.Machine
end

