-- ==== Sys2Proof/Machine/Dispatch.lean ====
section
/-!
DEFINITION. One arm per constructor of `Instr`, each one direct call of its meaning.
-/

namespace Sys2Proof.Machine

def exec (i : Instr) (s : State) : Host.Outcome State Fault Refusal :=
  match i with
  | .cfg p m r => Sys2Proof.Machine.execCfg p m r s
  | .edge t => Sys2Proof.Machine.execEdge t s
  | .bit v ss es => Sys2Proof.Machine.execBit v ss es s
  | .err u ss es => Sys2Proof.Machine.execErr u ss es s
  | .bit0Idle ss es => Sys2Proof.Machine.execBit0Idle ss es s
  | .bit1Idle _ _ => Sys2Proof.Machine.execBit1Idle s
  | .bit0Data ss es => Sys2Proof.Machine.execBit0Data ss es s
  | .bit1Data ss es => Sys2Proof.Machine.execBit1Data ss es s
  | .bit1FrameStop ss es => Sys2Proof.Machine.execBit1FrameStop ss es s
  | .bit0FrameStop _ _ => Sys2Proof.Machine.execBit0FrameStop s
  | .bit1FrameStop2 ss es => Sys2Proof.Machine.execBit1FrameStop2 ss es s
  | .bit0FrameStop2 ss es => Sys2Proof.Machine.execBit0FrameStop2 ss es s
  | .bit1BlockStop ss es => Sys2Proof.Machine.execBit1BlockStop ss es s
  | .bit0BlockStop ss es => Sys2Proof.Machine.execBit0BlockStop ss es s
  | .errAny u ss es => Sys2Proof.Machine.execErrAny u ss es s

end Sys2Proof.Machine
end

