-- ==== Sys2Proof/Machine/Flags.lean ====
section
/-!
DEFINITION. The core has no condition codes: no rule sets a flag as a side effect of arithmetic (R29). What
it has is the read-only status view (R35), made of state; reading it changes nothing (R56).
-/

namespace Sys2Proof.Machine

/-- The code of `SESSION` (R20). -/
def sessionCode : Session → BitVec 2
  | .unconfigured => 0#2
  | .running => 1#2
  | .halted => 2#2

/-- The code of `FS` (R20). -/
def framerCode : FramerState → BitVec 3
  | .idle => 0#3
  | .data => 1#3
  | .frameStop => 2#3
  | .frameStop2 => 3#3
  | .blockStop => 4#3

/-- The code of `PK` (R20). -/
def pendingCode : PendingKind → BitVec 2
  | .none => 0#2
  | .active => 1#2
  | .inactive => 2#2

/-- The flag `CONFIGURED` (R35): 1 exactly when `SESSION = Running`. -/
def State.configured (s : State) : Bool := decide (s.session = .running)

/-- The sticky flag `CFGERR` (R29, R35): 1 exactly when `SESSION = Halted`. -/
def State.cfgErr (s : State) : Bool := decide (s.session = .halted)

/-- The word `STATUS` (R35): `FS` in bits 8:6, `PROFILE` 5, `MODE` 4, `CFGERR` 3, `CONFIGURED` 2,
`SESSION` 1:0. -/
def State.status (s : State) : BitVec 9 :=
  framerCode s.fs ++ BitVec.ofBool (profileBit s.profile) ++ BitVec.ofBool (modeBit s.mode)
    ++ BitVec.ofBool s.cfgErr ++ BitVec.ofBool s.configured ++ sessionCode s.session

/-- What the host may read between steps (R35). -/
structure StatusView where
  status : BitVec 9
  rate : BitVec 64
  ahc : BitVec 64
  ihc : BitVec 64
  margin : BitVec 64
deriving DecidableEq, Repr

/-- The status view (R35). -/
def State.statusView (s : State) : StatusView := ⟨s.status, s.rate, s.ahc, s.ihc, s.margin⟩

end Sys2Proof.Machine
end

