-- ==== Sys2Proof/Machine/Streams.lean ====
section
/-!
DEFINITION. The binary form of what the core delivers: event codes and event words (R76, R77), the response
word (R78, R79), the causes and the events that report them (R196), and which events are diagnostics (R180).
-/

namespace Sys2Proof.Machine

/-- The code of an event kind (R77). -/
def EventKind.code : EventKind → BitVec 8
  | .rawBit => 0x01#8
  | .startBit => 0x02#8
  | .dataBit => 0x03#8
  | .stopBit => 0x04#8
  | .spacerBit => 0x05#8
  | .blockEnd => 0x06#8
  | .frame => 0x07#8
  | .framingError => 0x08#8
  | .blockError => 0x09#8
  | .decodeAbort => 0x0A#8
  | .block => 0x0B#8
  | .badLength => 0x0C#8
  | .badChecksum => 0x0D#8
  | .goodChecksum => 0x0E#8
  | .blockType => 0x0F#8
  | .blockTypeName => 0x10#8
  | .unknownType => 0x11#8
  | .checksumField => 0x12#8
  | .dataByte => 0x13#8

/-- `zext_64(val)` (R76): the number in 64 bits; the spec states none for a number of 2^64 or more, and
there the field is free. -/
def valField (n : Nat) : BitVec 64 := if n < 2 ^ 64 then BitVec.ofNat 64 n else Config.wideVal n

/-- The event word (R76): `code(NAME) ++ zext_64(val) ++ ss ++ es`. -/
def Event.word (e : Event) : EventWord := e.kind.code ++ valField e.val ++ e.ss ++ e.es

/-- The cause codes (R196). -/
def Cause.code : Cause → BitVec 4
  | .configurationError => 1#4
  | .halfCycleError => 2#4
  | .framingError => 3#4
  | .badLength => 4#4
  | .badChecksum => 5#4
  | .unknownBlockType => 6#4

/-- Only ConfigurationError is fatal (R190, R196). -/
def Cause.fatal : Cause → Bool
  | .configurationError => true
  | .halfCycleError => false
  | .framingError => false
  | .badLength => false
  | .badChecksum => false
  | .unknownBlockType => false

/-- The refusal reasons' numbers (R79). -/
def RefuseReason.code : RefuseReason → BitVec 4
  | .notConfigured => 1#4
  | .alreadyConfigured => 2#4
  | .halted => 3#4
  | .wrongMode => 4#4
  | .reservedOpcode => 5#4
  | .reservedField => 6#4
  | .blockFull => 7#4

/-- The response word (R78): outcome in bits 5:4, reason in bits 3:0. -/
def Response.word : Response → BitVec 6
  | .ok => 0#2 ++ 0#4
  | .fault c => 1#2 ++ c.code
  | .refused r => 2#2 ++ r.code

/-- The cause that an event reports, for the events of R196's column "reported as" (a BLOCK_ERROR
accompanies a FRAMING_ERROR and reports the same cause). -/
def EventKind.cause? : EventKind → Option Cause
  | .rawBit => none
  | .startBit => none
  | .dataBit => none
  | .stopBit => none
  | .spacerBit => none
  | .blockEnd => none
  | .frame => none
  | .framingError => some .framingError
  | .blockError => some .framingError
  | .decodeAbort => some .halfCycleError
  | .block => none
  | .badLength => some .badLength
  | .badChecksum => some .badChecksum
  | .goodChecksum => none
  | .blockType => none
  | .blockTypeName => none
  | .unknownType => some .unknownBlockType
  | .checksumField => none
  | .dataByte => none

/-- The diagnostics among a sealed block's events (R180): BAD_LENGTH, BAD_CHECKSUM, UNKNOWN_TYPE. -/
def EventKind.diagnostic (k : EventKind) : Bool :=
  k == .badLength || k == .badChecksum || k == .unknownType

/-- The event in an output, if it is one. -/
def Output.event? : Output → Option Event
  | .event e => some e
  | .response _ => none

/-- The response in an output, if it is one. -/
def Output.response? : Output → Option Response
  | .event _ => none
  | .response r => some r

/-- The event stream delivered so far (R70), in the order emitted. -/
def State.events (s : State) : List Event := s.out.filterMap Output.event?

/-- The response stream delivered so far (R70): one response an item. -/
def State.responses (s : State) : List Response := s.out.filterMap Output.response?

end Sys2Proof.Machine
end

