-- ==== Sys2Proof/Machine/Step.lean ====
section
/-!
DEFINITION. One step of the core: one input consumed whole (R6), or nothing when there is none (R214).
-/

namespace Sys2Proof.Machine

/-- One item word (R84, R85): a reserved encoding is refused by name, an item runs. -/
def stepItem (w : ItemWord) (s : State) : Host.Outcome State Fault Refusal :=
  match decode w with
  | .item i => exec i s
  | .rejected e => .next (refuseWord e s)

/-- One step (R6). With no input the core is idle and keeps all its state (R214, R236). -/
def step (s : State) : Host.Outcome State Fault Refusal :=
  match fetch s with
  | none => .next s
  | some (.reset, t) => .next t.assertReset
  | some (.item w, t) => stepItem w t

/-- `s` with the item word whose bits are `w` supplied as the next input, so that the next step takes it. The
bits from `nbits` up are 0, and the table's bit `k` is `item[k]` (R71). -/
def State.withFetchWord (s : State) (nbits w : Nat) : State :=
  { s with inp := .item (BitVec.ofNat 136 (w % 2 ^ nbits)) :: s.inp }

end Sys2Proof.Machine
end

