-- ==== Sys2Proof/Machine/Notation.lean ====
section
/-!
DEFINITION. The textual notation of the spec's examples (R88) and its two pseudo-items (R89). Nothing of the
machine uses this file: it is how a reader, and a claim, writes a stream of items down.
-/

namespace Sys2Proof.Machine

/-- The `i`-th value of the ten bits of a frame: start 0, the byte least significant bit first, stop 1 (R89). -/
def frameBit (byte : Byte) (i : Nat) : Bool :=
  if i = 0 then false else if i = 9 then true else byte.getLsbD (i - 1)

/-- `frame <byte> <t0> <w>` (R89): ten BIT items with touching spans of width `w`. DESIGN CHOICE: R89 has no item for a
sample index of 2^64 or more, and here such an index is reduced modulo 2^64 (log entry 19). -/
def frameItems (byte : Byte) (t0 w : Nat) : List Instr :=
  (List.range 10).map fun i =>
    .bit (frameBit byte i) (BitVec.ofNat 64 (t0 + i * w)) (BitVec.ofNat 64 (t0 + (i + 1) * w))

/-- `halfcycles <t0> <n1> ... <nk>` (R89): an EDGE item at `t0`, then one after each half-cycle length. DESIGN CHOICE: a
sample index of 2^64 or more is reduced modulo 2^64, as in `frameItems` (log entry 19). -/
def halfcycleItems : Nat → List Nat → List Instr
  | t0, [] => [.edge (BitVec.ofNat 64 t0)]
  | t0, n :: ns => .edge (BitVec.ofNat 64 t0) :: halfcycleItems (t0 + n) ns

/-- One hexadecimal digit. -/
def hexDigit (d : Nat) : Char := ("0123456789ABCDEF".toList).getD d '0'

/-- `k` hexadecimal digits of `n`, the most significant first. -/
def hexDigits : Nat → Nat → List Char
  | 0, _ => []
  | k + 1, n => hexDigit (n / 16 ^ k % 16) :: hexDigits k n

/-- A word printed as `HH_AAAAAAAAAAAAAAAA_BBBBBBBBBBBBBBBB` (R88): `op ++ arg`, `a`, `b`. -/
def itemWordText (w : ItemWord) : List Char :=
  hexDigits 2 (itemOp w ++ itemArg w).toNat ++ '_' :: hexDigits 16 (itemA w).toNat
    ++ '_' :: hexDigits 16 (itemB w).toNat

/-- The decimal digits of a number. -/
def decimalText (n : Nat) : List Char := Nat.toDigits 10 n

/-- The text of a profile (R88). -/
def profileText : Profile → List Char
  | .blaster => "blaster".toList
  | .smartdevice => "smartdevice".toList

/-- The text of a mode (R88). -/
def modeText : Mode → List Char
  | .raw => "raw".toList
  | .pre => "pre".toList

/-- The text of an Error's subtype (R88). -/
def subtypeText : ErrorSubtype → List Char
  | .phase => "phase".toList
  | .invalid => "invalid".toList

/-- Words separated by one space. -/
def spaced : List (List Char) → List Char
  | [] => []
  | [w] => w
  | w :: ws => w ++ ' ' :: spaced ws

/-- The line of an item (R88); a transition row has the line of its item. A rate of 0 is written `missing`. -/
def itemText (i : Instr) : List Char :=
  match i.item with
  | .cfg p m r =>
    spaced ["cfg".toList, profileText p, modeText m,
      if r = 0#64 then "missing".toList else decimalText r.toNat]
  | .edge t => spaced ["edge".toList, decimalText t.toNat]
  | .bit v ss es =>
    spaced ["bit".toList, decimalText (bitVal v), decimalText ss.toNat, decimalText es.toNat]
  | .err u ss es => spaced ["err".toList, subtypeText u, decimalText ss.toNat, decimalText es.toNat]
  | _ => []

/-- The line of an input (R88): an item's, `reset`, or `(word)` for a word that is no item. -/
def inputText : Input → List Char
  | .reset => "reset".toList
  | .item w =>
    match decode w with
    | .item i => itemText i
    | .rejected _ => "(word)".toList

/-- The name of an event kind (R77). -/
def EventKind.text : EventKind → List Char
  | .rawBit => "RAW_BIT".toList
  | .startBit => "START_BIT".toList
  | .dataBit => "DATA_BIT".toList
  | .stopBit => "STOP_BIT".toList
  | .spacerBit => "SPACER_BIT".toList
  | .blockEnd => "BLOCK_END".toList
  | .frame => "FRAME".toList
  | .framingError => "FRAMING_ERROR".toList
  | .blockError => "BLOCK_ERROR".toList
  | .decodeAbort => "DECODE_ABORT".toList
  | .block => "BLOCK".toList
  | .badLength => "BAD_LENGTH".toList
  | .badChecksum => "BAD_CHECKSUM".toList
  | .goodChecksum => "GOOD_CHECKSUM".toList
  | .blockType => "BLOCK_TYPE".toList
  | .blockTypeName => "BLOCK_TYPE_NAME".toList
  | .unknownType => "UNKNOWN_TYPE".toList
  | .checksumField => "CHECKSUM_FIELD".toList
  | .dataByte => "DATA_BYTE".toList

/-- An event printed `NAME(ss, es, val)`, its numbers in decimal (R88). -/
def Event.text (e : Event) : List Char :=
  e.kind.text ++ '(' :: decimalText e.ss.toNat ++ ", ".toList ++ decimalText e.es.toNat ++ ", ".toList
    ++ decimalText e.val ++ [')']

end Sys2Proof.Machine
end

