-- ==== Sys2Proof/Safety.lean ====
section
/-!
DEFINITION. The terms in which claims speak: the invariants of the reachable state (R39, R20, R34), the state
that a session begins with, runs over many inputs, and what a step has delivered.
-/

namespace Sys2Proof.Machine

/-- The framer's rows of R39's table: what `FS` says of the two buffers, and what an empty frame buffer
holds (R24, R160). -/
abbrev FramerInv (s : State) : Prop :=
  (s.fs = .idle → s.fbCnt = 0#4 ∧ s.bb = []) ∧
  (s.fs = .data → 1 ≤ s.fbCnt.toNat ∧ s.fbCnt.toNat ≤ 8 ∧ s.fbBits.getLsbD 0 = false) ∧
  (s.fs = .frameStop → s.fbCnt = 9#4 ∧ s.fbBits.getLsbD 0 = false) ∧
  (s.fs = .frameStop2 → s.fbCnt = 0#4 ∧ 1 ≤ s.bb.length) ∧
  (s.fs = .blockStop → s.fbCnt = 0#4 ∧ 1 ≤ s.bb.length) ∧
  (s.fbCnt = 0#4 → s.fbBits = 0#9 ∧ s.fbSs = 0#64 ∧ s.fbEs = 0#64)

/-- The classifier's rows of R39's table: a pending half-cycle needs an edge and raw-timing mode, and
pre-classified mode leaves the classifier untouched. (That two EDGE items were accepted before `PK` is set
is history, which a state does not hold.) -/
abbrev ClassifierInv (s : State) : Prop :=
  (s.pk ≠ .none → s.e1v = true ∧ s.mode = .raw) ∧
  (s.mode = .pre → s.e1v = false ∧ s.e1 = 0#64 ∧ s.e2 = 0#64 ∧ s.pk = .none)

/-- The session's row of R39's table: outside a running session every element but `SESSION` holds its reset
value (the two fields of the model's own, the streams, apart). -/
abbrev SessionInv (s : State) : Prop :=
  s.session ≠ .running →
    s = { State.reset with session := s.session, inp := s.inp, out := s.out }

/-- The conditions of R39's table, for one state. -/
abbrev Inv (s : State) : Prop := FramerInv s ∧ ClassifierInv s ∧ SessionInv s

/-- In a running session the rate is legal and the thresholds are those of the profile and the rate (R33,
R34, R102). -/
abbrev ConfigInv (s : State) : Prop :=
  s.session = .running →
    minRate ≤ s.rate.toNat ∧
    s.ahc = threshold (tenthsActive s.profile) s.rate ∧
    s.ihc = threshold (tenthsInactive s.profile) s.rate ∧
    s.margin = threshold (tenthsMargin s.profile) s.rate

/-- A block buffer holds at most `cap` frames when the capacity is finite (R20, R163). -/
abbrev CapacityInv (cap : Option Nat) (s : State) : Prop := ∀ c ∈ cap, s.bb.length ≤ c

/-- Running in pre-classified mode: where BIT and ERR are legal (R87). -/
abbrev ReadyForBits (s : State) : Prop := s.session = .running ∧ s.mode = .pre

/-- Running in raw-timing mode: where EDGE is legal (R87). -/
abbrev ReadyForEdges (s : State) : Prop := s.session = .running ∧ s.mode = .raw

/-- The core's part of the state, without the streams: two states agree on every element of R20. -/
abbrev SameCore (s t : State) : Prop := t = { s with inp := t.inp, out := t.out }

/-- What one item adds to the output: its events in order, then its response (R70, R78). -/
def delivery (events : List Event) (r : Response) : List Output :=
  events.map .event ++ [.response r]

/-- A list of instructions, one after the other, each run by `exec`. -/
def execAll : List Instr → State → Host.Outcome State Fault Refusal
  | [], s => .next s
  | i :: is, s =>
    match exec i s with
    | .next t => execAll is t
    | .fault f => .fault f
    | .refused r => .refused r

/-- The states that a session of the host reaches from reset: it supplies inputs, and the core steps. -/
inductive Reachable : State → Prop where
  | reset : Reachable State.reset
  | supply (s : State) (i : Input) : Reachable s → Reachable (s.supply i)
  | step (s t : State) : Reachable s → Machine.step s = .next t → Reachable t

/-- The number of FRAME events since the framer last returned to `Idle`, which every BLOCK_END, FRAMING_ERROR
and DECODE_ABORT event marks (R165), counted over a list of outputs from a count `n`. -/
def framesInProgress : Nat → List Output → Nat
  | n, [] => n
  | n, .response _ :: os => framesInProgress n os
  | n, .event e :: os =>
    if e.kind = .frame then framesInProgress (n + 1) os
    else if e.kind = .blockEnd ∨ e.kind = .framingError ∨ e.kind = .decodeAbort then framesInProgress 0 os
    else framesInProgress n os

/-- How many of the outputs were delivered before the session in progress began, followed over one step: an assertion of
reset begins a session (R220), and nothing else moves the mark. -/
def sessionMark (mark : Nat) (s : State) : Nat :=
  match s.inp with
  | .reset :: _ => s.out.length
  | _ => mark

/-- R165 as a condition on one state: since the session in progress began (`mark` outputs were delivered before it), the
FRAME events since the framer last returned to `Idle` are as many as the frames in the block buffer. -/
abbrev FrameCountInv (mark : Nat) (s : State) : Prop :=
  mark ≤ s.out.length ∧ framesInProgress 0 (s.out.drop mark) = s.bb.length

/-- The instruction hands BitFramer the Bit `v` over `[ss, es]`: it is that BIT item or a row of it, or an EDGE at `es`
that completes a pair of the kind of `v`, begun at `ss` (R124, R140). -/
abbrev FeedsBit (i : Instr) (s : State) (v : Bool) (ss es : Sample) : Prop :=
  i.item = .bit v ss es ∨
  (i = .edge es ∧ s.e1v = true ∧ ss = s.e2 ∧
    s.pk = (if v then PendingKind.inactive else PendingKind.active) ∧
    classifyInterval s.ahc s.ihc s.margin ((es.toNat : Int) - s.e1.toNat)
      = (if v then HalfCycleKind.inactive else HalfCycleKind.active))

end Sys2Proof.Machine
end

