-- ==== Sys2Proof/Certificates/Slice0/Obligations.lean ====
section
/-!
DEFINITION. The statements for the provers, in the order of `OBLIGATIONS.json`.

A result statement gives the WHOLE next state, written over the state before the item with the new values,
so it says both what changes and that nothing else does. The item is consumed by the step before its meaning
runs, so the input stream is not written by any meaning. `delivery evs r` is what one item adds to the
output: its events, then its response. That the streams of R70 stand in the state, as `inp` and `out`, is the model's own
form (log entry 1); `Config.blockCap` is the spec's open `BLOCK_CAP` (log entry 3).
-/

open Sys2Proof Sys2Proof.Machine

/-! ## Encoding -/

/-- R72 to R75, R84, R85 on words that the spec prints (95_test_vectors.md V3, V9, P1, P2, P4, P5). -/
def Obligations.PrintedWordsDecode : Prop :=
  decode 0x11FFFFFFFFFFFFFFFF0000000000000000#136 = .item (.cfg .smartdevice .raw (BitVec.allOnes 64)) ∧
  decode 0x1200000000000F42400000000000000000#136 = .item (.cfg .blaster .pre 1000000#64) ∧
  decode 0x2000000000000004650000000000000000#136 = .item (.edge 1125#64) ∧
  decode 0x3100000000000002580000000000000352#136 = .item (.bit true 600#64 850#64) ∧
  decode 0x4000000000000019C80000000000001A2C#136 = .item (.err .phase 6600#64 6700#64) ∧
  decode 0x410000000000001B260000000000001B58#136 = .item (.err .invalid 6950#64 7000#64) ∧
  decode 0xF000000000000000000000000000000000#136 = .rejected .reservedOpcode ∧
  decode 0x140000000000003E800000000000000000#136 = .rejected .reservedField

/-- Decode and encode agree: an item comes back from its word with every operand, and a transition row's
word is that of the item it is a case of (R72 to R75, R83). -/
def Obligations.DecodeInvertsEncode : Prop :=
  (∀ i : Instr, i.wellFormed = true → decode (encode i) = .item i) ∧
  (∀ i : Instr, decode (encode i) = .item i.item)

/-- Every word that is an item is the word of exactly that item: no bit of it is ignored (R71 to R75, R85). -/
def Obligations.EveryItemWordHasOneReading : Prop :=
  ∀ (w : ItemWord) (i : Instr), decode w = .item i → i.wellFormed = true ∧ encode i = w

/-- Where the fields stand in the word (R71 to R75), for every operand. -/
def Obligations.FieldsStandInTheirBits : Prop :=
  (∀ p m r, (encode (.cfg p m r)).extractLsb' 132 4 = 1#4 ∧
    (encode (.cfg p m r)).getLsbD 128 = decide (p = .smartdevice) ∧
    (encode (.cfg p m r)).getLsbD 129 = decide (m = .pre) ∧
    (encode (.cfg p m r)).extractLsb' 130 2 = 0#2 ∧
    (encode (.cfg p m r)).extractLsb' 64 64 = r ∧ (encode (.cfg p m r)).extractLsb' 0 64 = 0#64) ∧
  (∀ t, (encode (.edge t)).extractLsb' 128 8 = 0x20#8 ∧
    (encode (.edge t)).extractLsb' 64 64 = t ∧ (encode (.edge t)).extractLsb' 0 64 = 0#64) ∧
  (∀ v ss es, (encode (.bit v ss es)).extractLsb' 129 7 = 0b0011000#7 ∧
    (encode (.bit v ss es)).getLsbD 128 = v ∧
    (encode (.bit v ss es)).extractLsb' 64 64 = ss ∧ (encode (.bit v ss es)).extractLsb' 0 64 = es) ∧
  (∀ u ss es, (encode (.err u ss es)).extractLsb' 129 7 = 0b0100000#7 ∧
    (encode (.err u ss es)).getLsbD 128 = decide (u = .invalid) ∧
    (encode (.err u ss es)).extractLsb' 64 64 = ss ∧ (encode (.err u ss es)).extractLsb' 0 64 = es)

/-- R84: a reserved opcode is refused in every session state, with no state change and no event. -/
def Obligations.ReservedOpcodeRefused : Prop :=
  ∀ (s : State) (w : ItemWord) (rest : List Input), s.inp = .item w :: rest →
    (w.extractLsb' 132 4).toNat = 0 ∨ 5 ≤ (w.extractLsb' 132 4).toNat →
    step s = .next { s with inp := rest, out := s.out ++ delivery [] (.refused .reservedOpcode) }

/-- R85: a word of a legal opcode with a non-zero reserved field is refused, not executed. -/
def Obligations.ReservedFieldRefused : Prop :=
  ∀ (s : State) (w : ItemWord) (rest : List Input), s.inp = .item w :: rest →
    (w.extractLsb' 132 4 = 1#4 ∧ (w.extractLsb' 130 2 ≠ 0#2 ∨ w.extractLsb' 0 64 ≠ 0#64)) ∨
    (w.extractLsb' 132 4 = 2#4 ∧ (w.extractLsb' 128 4 ≠ 0#4 ∨ w.extractLsb' 0 64 ≠ 0#64)) ∨
    (w.extractLsb' 132 4 = 3#4 ∧ w.extractLsb' 129 3 ≠ 0#3) ∨
    (w.extractLsb' 132 4 = 4#4 ∧ w.extractLsb' 129 3 ≠ 0#3) →
    step s = .next { s with inp := rest, out := s.out ++ delivery [] (.refused .reservedField) }

/-! ## The step and the streams -/

/-- A step whose next input is the word of an item runs that item on the state without the input. -/
def Obligations.StepRunsTheDecodedItem : Prop :=
  ∀ (s : State) (w : ItemWord) (rest : List Input) (i : Instr),
    s.inp = .item w :: rest → decode w = .item i →
    step s = exec i { s with inp := rest } ∧ i.wellFormed = true

/-- R220, R221: one assertion of reset, in any state, puts every element at the value of R221's table, emits no
event and gives no response; and no other step leaves `Running` or `Halted`. That the streams keep what they hold is the
model's choice (log entry 10). -/
def Obligations.ResetGivesTheTableOfR221 : Prop :=
  (∀ (s : State) (rest : List Input), s.inp = .reset :: rest →
    step s = .next {
      session := .unconfigured, profile := .blaster, mode := .raw, rate := 0#64, ahc := 0#64, ihc := 0#64,
      margin := 0#64, e1v := false, e1 := 0#64, e2 := 0#64, pk := .none, fs := .idle, fbCnt := 0#4,
      fbBits := 0#9, fbSs := 0#64, fbEs := 0#64, bb := [], inp := rest, out := s.out }) ∧
  (∀ s t : State, s.session ≠ .unconfigured → step s = .next t → t.session ≠ s.session →
    ∃ rest, s.inp = .reset :: rest)

/-- R214, R236: with no input the core does nothing and keeps all its state. That such a step exists at all is the model's
choice (log entry 9). -/
def Obligations.IdleWithoutInput : Prop :=
  ∀ s : State, s.inp = [] → step s = .next s

/-- R58, R70, R78: a step on an item consumes that item alone and adds to the output its events and then
exactly one response. -/
def Obligations.OneResponsePerItem : Prop :=
  ∀ (s t : State) (w : ItemWord) (rest : List Input),
    s.inp = .item w :: rest → step s = .next t →
    t.inp = rest ∧ ∃ (evs : List Event) (r : Response), t.out = s.out ++ delivery evs r

/-- R7, R79: a refused item changes no state and emits no event. -/
def Obligations.RefusedItemChangesNothing : Prop :=
  ∀ (s t : State) (w : ItemWord) (rest : List Input) (evs : List Event) (q : RefuseReason),
    s.inp = .item w :: rest → step s = .next t → t.out = s.out ++ delivery evs (.refused q) →
    t = { s with inp := rest, out := s.out ++ delivery [] (.refused q) }

/-- R79: the refusals and their priority, with their numbers. Each clause excludes those above it. -/
def Obligations.RefusalPriority : Prop :=
  (RefuseReason.notConfigured.code = 1#4 ∧ RefuseReason.alreadyConfigured.code = 2#4 ∧
    RefuseReason.halted.code = 3#4 ∧ RefuseReason.wrongMode.code = 4#4 ∧
    RefuseReason.reservedOpcode.code = 5#4 ∧ RefuseReason.reservedField.code = 6#4 ∧
    RefuseReason.blockFull.code = 7#4) ∧
  (∀ (s : State) (w : ItemWord) (rest : List Input), s.inp = .item w :: rest →
    let refusedFor (q : RefuseReason) : Prop :=
      step s = .next { s with inp := rest, out := s.out ++ delivery [] (.refused q) }
    match decode w with
    | .rejected .reservedOpcode => refusedFor .reservedOpcode
    | .rejected .reservedField => refusedFor .reservedField
    | .item i =>
      (s.session = .halted → refusedFor .halted) ∧
      (s.session = .unconfigured → (∀ p m r, i ≠ .cfg p m r) → refusedFor .notConfigured) ∧
      (s.session = .running → (∃ p m r, i = .cfg p m r) → refusedFor .alreadyConfigured) ∧
      (s.session = .running → s.mode = .pre → (∃ t, i = .edge t) → refusedFor .wrongMode) ∧
      (s.session = .running → s.mode = .raw → (∃ v ss es, i = .bit v ss es) → refusedFor .wrongMode) ∧
      (s.session = .running → s.mode = .raw → (∃ u ss es, i = .err u ss es) → refusedFor .wrongMode) ∧
      (∀ c, Config.blockCap = some c → s.bb.length = c → s.fs = .frameStop → s.session = .running →
        (s.mode = .pre → (∃ ss es, i = .bit true ss es) → refusedFor .blockFull) ∧
        (s.mode = .raw → ∀ t, i = .edge t → s.e1v = true → s.pk = .inactive →
          classifyInterval s.ahc s.ihc s.margin ((t.toNat : Int) - s.e1.toNat) = .inactive →
          refusedFor .blockFull)))

/-- R35: the status word, bit by bit. -/
def Obligations.StatusWordFields : Prop :=
  ∀ s : State,
    (s.status.extractLsb' 0 2).toNat =
      (match s.session with | .unconfigured => 0 | .running => 1 | .halted => 2) ∧
    s.status.getLsbD 2 = decide (s.session = .running) ∧
    s.status.getLsbD 3 = decide (s.session = .halted) ∧
    s.status.getLsbD 4 = decide (s.mode = .pre) ∧
    s.status.getLsbD 5 = decide (s.profile = .smartdevice) ∧
    (s.status.extractLsb' 6 3).toNat =
      (match s.fs with | .idle => 0 | .data => 1 | .frameStop => 2 | .frameStop2 => 3 | .blockStop => 4) ∧
    s.statusView = ⟨s.status, s.rate, s.ahc, s.ihc, s.margin⟩

/-- R76, R77: the four parts of an event word, for every event whose value fits its field, and the codes. -/
def Obligations.EventWordFields : Prop :=
  (∀ e : Event, e.val < 2 ^ 64 →
    e.word.extractLsb' 192 8 = e.kind.code ∧ (e.word.extractLsb' 128 64).toNat = e.val ∧
    e.word.extractLsb' 64 64 = e.ss ∧ e.word.extractLsb' 0 64 = e.es) ∧
  ([EventKind.rawBit, .startBit, .dataBit, .stopBit, .spacerBit, .blockEnd, .frame, .framingError,
    .blockError, .decodeAbort, .block, .badLength, .badChecksum, .goodChecksum, .blockType, .blockTypeName,
    .unknownType, .checksumField, .dataByte].map fun k => k.code.toNat) = (List.range 19).map (· + 1)

/-- R78: the response word. -/
def Obligations.ResponseWordFields : Prop :=
  Response.ok.word = 0x00#6 ∧
  (Response.fault .configurationError).word = 0x11#6 ∧
  (∀ q : RefuseReason, (Response.refused q).word.extractLsb' 4 2 = 2#2 ∧
    (Response.refused q).word.extractLsb' 0 4 = q.code ∧ q.code ≠ 0#4 ∧ q.code.toNat < 8)

/-! ## CFG -/

/-- R110, R111: what CFG does in each session state; in an unconfigured session it configures exactly when the
rate is 16 000 or more, in either mode, with the thresholds of R102 exact. -/
def Obligations.CfgConfigures : Prop :=
  ∀ (p : Profile) (m : Mode) (r : BitVec 64) (s : State),
    (s.session = .halted →
      exec (.cfg p m r) s = .next { s with out := s.out ++ delivery [] (.refused .halted) }) ∧
    (s.session = .running →
      exec (.cfg p m r) s = .next { s with out := s.out ++ delivery [] (.refused .alreadyConfigured) }) ∧
    (s.session = .unconfigured → r.toNat < 16000 →
      exec (.cfg p m r) s =
        .next { s with session := .halted, out := s.out ++ delivery [] (.fault .configurationError) }) ∧
    (s.session = .unconfigured → 16000 ≤ r.toNat →
      ∃ a i g : BitVec 64,
        a.toNat = r.toNat * (match p with | .blaster => 1250 | .smartdevice => 1130) / 10000000 ∧
        i.toNat = r.toNat * (match p with | .blaster => 2500 | .smartdevice => 2270) / 10000000 ∧
        g.toNat = r.toNat * (match p with | .blaster => 625 | .smartdevice => 565) / 10000000 ∧
        exec (.cfg p m r) s =
          .next { s with
            session := .running, profile := p, mode := m, rate := r, ahc := a, ihc := i, margin := g,
            out := s.out ++ delivery [] .ok })

/-- R190: a FAULT response is given by CFG alone, with cause 1, exactly in an unconfigured session with a rate
below 16 000. -/
def Obligations.ConfigurationErrorExactly : Prop :=
  (∀ (i : Instr) (s : State), 
    (∃ (t : State) (evs : List Event) (c : Cause),
      exec i s = .next t ∧ t.out = s.out ++ delivery evs (.fault c)) ↔
    (s.session = .unconfigured ∧ ∃ p m r, i = .cfg p m r ∧ r.toNat < 16000)) ∧
  (∀ (i : Instr) (s t : State) (evs : List Event) (c : Cause),
    exec i s = .next t → t.out = s.out ++ delivery evs (.fault c) →
    c = .configurationError ∧ evs = [] ∧ t = { s with session := .halted, out := t.out }) ∧
  Cause.configurationError.code = 1#4

/-- R103: the thresholds at the rates of the table. -/
def Obligations.ThresholdTable : Prop :=
  let row (p : Profile) (rate : Nat) : List Nat :=
    [(threshold (tenthsActive p) (BitVec.ofNat 64 rate)).toNat,
     (threshold (tenthsInactive p) (BitVec.ofNat 64 rate)).toNat,
     (threshold (tenthsMargin p) (BitVec.ofNat 64 rate)).toNat]
  row .blaster 16000 = [2, 4, 1] ∧ row .smartdevice 16000 = [1, 3, 0] ∧
  row .blaster 17699 = [2, 4, 1] ∧ row .smartdevice 17699 = [1, 4, 0] ∧
  row .blaster 17700 = [2, 4, 1] ∧ row .smartdevice 17700 = [2, 4, 1] ∧
  row .blaster 20000 = [2, 5, 1] ∧ row .smartdevice 20000 = [2, 4, 1] ∧
  row .blaster 44100 = [5, 11, 2] ∧ row .smartdevice 44100 = [4, 10, 2] ∧
  row .blaster 48000 = [6, 12, 3] ∧ row .smartdevice 48000 = [5, 10, 2] ∧
  row .blaster 100000 = [12, 25, 6] ∧ row .smartdevice 100000 = [11, 22, 5] ∧
  row .blaster 1000000 = [125, 250, 62] ∧ row .smartdevice 1000000 = [113, 227, 56] ∧
  row .blaster 2000000 = [250, 500, 125] ∧ row .smartdevice 2000000 = [226, 454, 113]

/-- R104: the three facts about the windows, for every legal rate and both profiles, and what follows for
`classifyInterval`. -/
def Obligations.WindowFacts : Prop :=
  ∀ (p : Profile) (rate : BitVec 64), 16000 ≤ rate.toNat →
    let a := threshold (tenthsActive p) rate
    let i := threshold (tenthsInactive p) rate
    let g := threshold (tenthsMargin p) rate
    (g.toNat = a.toNat / 2 ∧ 1 ≤ (a.toNat : Int) - g.toNat) ∧
    (∀ n : Int, n ≤ 0 → classifyInterval a i g n = .error) ∧
    (a.toNat : Int) + g.toNat ≤ (i.toNat : Int) - g.toNat ∧
    (g.toNat = 0 ↔ p = .smartdevice ∧ rate.toNat ≤ 17699) ∧
    ((∀ n : Int, classifyInterval a i g n = .error) ↔ p = .smartdevice ∧ rate.toNat ≤ 17699)

/-- R105, R106, R107: `classifyInterval` on any register values: both windows half-open, the `Inactive` test
first. -/
def Obligations.ClassifyIntervalWindows : Prop :=
  ∀ (a i g : BitVec 64) (n : Int),
    let inactive : Prop := (i.toNat : Int) - g.toNat ≤ n ∧ n < (i.toNat : Int) + g.toNat
    let active : Prop := (a.toNat : Int) - g.toNat ≤ n ∧ n < (a.toNat : Int) + g.toNat
    (classifyInterval a i g n = .inactive ↔ inactive) ∧
    (classifyInterval a i g n = .active ↔ active ∧ ¬ inactive) ∧
    (classifyInterval a i g n = .error ↔ ¬ active ∧ ¬ inactive)

/-- R109: in a configured session every length within margin of a reference is of that kind, and every length
outside both windows is `Error`. -/
def Obligations.ComparatorPromise : Prop :=
  ∀ (s : State) (n : Int), s.session = .running → ConfigInv s →
    ((s.ahc.toNat : Int) - s.margin.toNat ≤ n ∧ n < (s.ahc.toNat : Int) + s.margin.toNat →
      classifyInterval s.ahc s.ihc s.margin n = .active) ∧
    ((s.ihc.toNat : Int) - s.margin.toNat ≤ n ∧ n < (s.ihc.toNat : Int) + s.margin.toNat →
      classifyInterval s.ahc s.ihc s.margin n = .inactive) ∧
    (¬ ((s.ahc.toNat : Int) - s.margin.toNat ≤ n ∧ n < (s.ahc.toNat : Int) + s.margin.toNat) →
      ¬ ((s.ihc.toNat : Int) - s.margin.toNat ≤ n ∧ n < (s.ihc.toNat : Int) + s.margin.toNat) →
      classifyInterval s.ahc s.ihc s.margin n = .error)

/-! ## EDGE -/

/-- R122: the first edge after reset only sets the reference. -/
def Obligations.FirstEdgeSetsReference : Prop :=
  ∀ (t : Sample) (s : State), ReadyForEdges s → s.e1v = false →
    exec (.edge t) s = .next { s with e1v := true, e1 := t, out := s.out ++ delivery [] .ok }

/-- R123: an `Error` half-cycle drops the pending one and resets the framer, with one DECODE_ABORT over `[E1, t]`
of subtype `Invalid`; the edge history advances. -/
def Obligations.ErrorHalfCycleAborts : Prop :=
  ∀ (t : Sample) (s : State), ReadyForEdges s → s.e1v = true →
    classifyInterval s.ahc s.ihc s.margin ((t.toNat : Int) - s.e1.toNat) = .error →
    exec (.edge t) s = .next { s with
      pk := .none, e2 := s.e1, e1 := t, fs := .idle, fbCnt := 0#4, fbBits := 0#9, fbSs := 0#64, fbEs := 0#64,
      bb := [], out := s.out ++ delivery [⟨.decodeAbort, s.e1, t, 1⟩] .ok }

/-- R125: a half-cycle that finds no partner of its kind becomes the pending one; no event. -/
def Obligations.UnpairedHalfCycleWaits : Prop :=
  ∀ (t : Sample) (s : State), ReadyForEdges s → s.e1v = true →
    (classifyInterval s.ahc s.ihc s.margin ((t.toNat : Int) - s.e1.toNat) = .active → s.pk ≠ .active →
      exec (.edge t) s =
        .next { s with pk := .active, e2 := s.e1, e1 := t, out := s.out ++ delivery [] .ok }) ∧
    (classifyInterval s.ahc s.ihc s.margin ((t.toNat : Int) - s.e1.toNat) = .inactive → s.pk ≠ .inactive →
      exec (.edge t) s =
        .next { s with pk := .inactive, e2 := s.e1, e1 := t, out := s.out ++ delivery [] .ok })

/-- R124, R128: a matching pair emits RAW_BIT over `[E2, t]` and then does to BitFramer exactly what the BIT item
`(v, E2, t)` does in pre-classified mode, in the same step; if the framer refuses the Bit, nothing is written. -/
def Obligations.PairActsAsBitItem : Prop :=
  ∀ (t : Sample) (s : State) (v : Bool), ReadyForEdges s → s.e1v = true →
    classifyInterval s.ahc s.ihc s.margin ((t.toNat : Int) - s.e1.toNat)
      = (if v then HalfCycleKind.inactive else HalfCycleKind.active) →
    s.pk = (if v then PendingKind.inactive else PendingKind.active) →
    (∀ (u : State) (evs : List Event),
      exec (.bit v s.e2 t) { s with mode := .pre } = .next u → u.out = s.out ++ delivery evs .ok →
      exec (.edge t) s = .next { u with
        mode := .raw, pk := .none, e2 := s.e1, e1 := t,
        out := s.out ++ delivery (⟨.rawBit, s.e2, t, if v then 1 else 0⟩ :: evs) .ok }) ∧
    (∀ (u : State) (evs : List Event) (q : RefuseReason),
      exec (.bit v s.e2 t) { s with mode := .pre } = .next u → u.out = s.out ++ delivery evs (.refused q) →
      exec (.edge t) s = .next { s with out := s.out ++ delivery [] (.refused q) })

/-- EDGE completes: in a running raw-timing session with the framer's invariant and room in the block buffer,
every edge is answered OK (R121). -/
def Obligations.EdgeCompletes : Prop :=
  ∀ (t : Sample) (s : State), ReadyForEdges s → FramerInv s →
    blockFull Config.blockCap s.bb.length = false →
    ∃ (u : State) (evs : List Event),
      exec (.edge t) s = .next u ∧ u.out = s.out ++ delivery evs .ok ∧ u.e1v = true ∧ u.e1 = t ∧
      (s.e1v = true → u.e2 = s.e1)

/-- R130: an edge that does not increase is an `Error` half-cycle with its span as given, and moves the reference
back; it is no fault and no refusal. -/
def Obligations.NonIncreasingEdgeIsError : Prop :=
  ∀ (t : Sample) (s : State), ReadyForEdges s → ConfigInv s → s.e1v = true → t.toNat ≤ s.e1.toNat →
    exec (.edge t) s = .next { s with
      pk := .none, e2 := s.e1, e1 := t, fs := .idle, fbCnt := 0#4, fbBits := 0#9, fbSs := 0#64, fbEs := 0#64,
      bb := [], out := s.out ++ delivery [⟨.decodeAbort, s.e1, t, 1⟩] .ok }

/-- R22, R129: an EDGE changes no configuration, never faults, and every EDGE that is not refused advances the
edge history, whatever BitFramer does; a refused one leaves it. -/
def Obligations.EdgeHistoryAndConfigurationFrame : Prop :=
  ∀ (t : Sample) (s u : State), exec (.edge t) s = .next u →
    u.session = s.session ∧ u.profile = s.profile ∧ u.mode = s.mode ∧ u.rate = s.rate ∧ u.ahc = s.ahc ∧
    u.ihc = s.ihc ∧ u.margin = s.margin ∧ u.inp = s.inp ∧
    ∃ evs : List Event,
      (u.out = s.out ++ delivery evs .ok ∧ u.e1v = true ∧ u.e1 = t ∧
        u.e2 = if s.e1v = true then s.e1 else s.e2) ∨
      (∃ q, u = { s with out := s.out ++ delivery [] (.refused q) })

/-! ## BIT, ERR and the transition rows -/

/-- R83, R140, R141: BIT runs the row that `(FS, v)` selects, and ERR always runs `ERR.any`, in every state. (That a row is
an instruction with the item's legality tests before it is the model's choice, log entry 4.) -/
def Obligations.ItemsRunTheirRows : Prop :=
  (∀ (s : State) (ss es : Sample),
    (s.fs = .idle → exec (.bit false ss es) s = exec (.bit0Idle ss es) s ∧
      exec (.bit true ss es) s = exec (.bit1Idle ss es) s) ∧
    (s.fs = .data → exec (.bit false ss es) s = exec (.bit0Data ss es) s ∧
      exec (.bit true ss es) s = exec (.bit1Data ss es) s) ∧
    (s.fs = .frameStop → exec (.bit false ss es) s = exec (.bit0FrameStop ss es) s ∧
      exec (.bit true ss es) s = exec (.bit1FrameStop ss es) s) ∧
    (s.fs = .frameStop2 → exec (.bit false ss es) s = exec (.bit0FrameStop2 ss es) s ∧
      exec (.bit true ss es) s = exec (.bit1FrameStop2 ss es) s) ∧
    (s.fs = .blockStop → exec (.bit false ss es) s = exec (.bit0BlockStop ss es) s ∧
      exec (.bit true ss es) s = exec (.bit1BlockStop ss es) s)) ∧
  (∀ (s : State) (u : ErrorSubtype) (ss es : Sample), exec (.err u ss es) s = exec (.errAny u ss es) s)

/-- R142, R146, R150, R152: a 0 in `Idle`, `FrameStop2` or `BlockStop` starts a frame: the buffer holds the start
bit alone, with its span, and the block buffer is kept. -/
def Obligations.StartBitStartsFrame : Prop :=
  ∀ (ss es : Sample) (s : State), ReadyForBits s →
    let started : State := { s with
      fbCnt := 1#4, fbBits := 0#9, fbSs := ss, fbEs := es, fs := .data,
      out := s.out ++ delivery [⟨.startBit, ss, es, 0⟩] .ok }
    (s.fs = .idle → exec (.bit0Idle ss es) s = .next started ∧ exec (.bit false ss es) s = .next started ∧
      (FramerInv s → started.bb = [])) ∧
    (s.fs = .frameStop2 →
      exec (.bit0FrameStop2 ss es) s = .next started ∧ exec (.bit false ss es) s = .next started) ∧
    (s.fs = .blockStop →
      exec (.bit0BlockStop ss es) s = .next started ∧ exec (.bit false ss es) s = .next started)

/-- R143: a 1 in `Idle` writes nothing and emits nothing; in raw-timing mode the RAW_BIT of the enclosing EDGE
step is still emitted. -/
def Obligations.IdleLineIgnored : Prop :=
  (∀ (ss es : Sample) (s : State), ReadyForBits s → s.fs = .idle →
    exec (.bit1Idle ss es) s = .next { s with out := s.out ++ delivery [] .ok } ∧
    exec (.bit true ss es) s = .next { s with out := s.out ++ delivery [] .ok }) ∧
  (∀ (t : Sample) (s : State), ReadyForEdges s → s.fs = .idle → s.e1v = true → s.pk = .inactive →
    classifyInterval s.ahc s.ihc s.margin ((t.toNat : Int) - s.e1.toNat) = .inactive →
    exec (.edge t) s = .next { s with
      pk := .none, e2 := s.e1, e1 := t, out := s.out ++ delivery [⟨.rawBit, s.e2, t, 1⟩] .ok })

/-- R144: a bit of either value in `Data` is appended at position `FB_CNT`; the ninth bit leads to `FrameStop`. -/
def Obligations.DataBitAppended : Prop :=
  ∀ (v : Bool) (ss es : Sample) (s : State), ReadyForBits s → s.fs = .data → s.fbCnt.toNat ≤ 8 →
    ∃ bits : BitVec 9,
      bits.getLsbD s.fbCnt.toNat = v ∧ (∀ i, i ≠ s.fbCnt.toNat → bits.getLsbD i = s.fbBits.getLsbD i) ∧
      (s.fbCnt + 1#4).toNat = s.fbCnt.toNat + 1 ∧
      (let appended : State := { s with
        fbBits := bits, fbCnt := s.fbCnt + 1#4, fbEs := es,
        fs := if s.fbCnt.toNat = 8 then .frameStop else .data,
        out := s.out ++ delivery [⟨.dataBit, ss, es, if v then 1 else 0⟩] .ok }
      exec (.bit v ss es) s = .next appended ∧
      (v = false → exec (.bit0Data ss es) s = .next appended) ∧
      (v = true → exec (.bit1Data ss es) s = .next appended))

/-- R145: the byte, the first data bit received least significant. -/
def Obligations.PackByteValue : Prop :=
  ∀ bits : BitVec 9,
    (packByte bits).toNat =
      (bits.getLsbD 1).toNat * 1 + (bits.getLsbD 2).toNat * 2 + (bits.getLsbD 3).toNat * 4 +
      (bits.getLsbD 4).toNat * 8 + (bits.getLsbD 5).toNat * 16 + (bits.getLsbD 6).toNat * 32 +
      (bits.getLsbD 7).toNat * 64 + (bits.getLsbD 8).toNat * 128

/-- R147, R160, R161: a 1 in `FrameStop` completes the frame, where the block buffer has room. -/
def Obligations.StopBitCompletesFrame : Prop :=
  ∀ (ss es : Sample) (s : State), ReadyForBits s → s.fs = .frameStop →
    (∀ c, Config.blockCap = some c → s.bb.length ≠ c) →
    let completed : State := { s with
      bb := s.bb ++ [⟨packByte s.fbBits, s.fbSs, es⟩],
      fbCnt := 0#4, fbBits := 0#9, fbSs := 0#64, fbEs := 0#64, fs := .frameStop2,
      out := s.out ++
        delivery [⟨.stopBit, ss, es, 1⟩, ⟨.frame, s.fbSs, es, (packByte s.fbBits).toNat⟩] .ok }
    exec (.bit1FrameStop ss es) s = .next completed ∧ exec (.bit true ss es) s = .next completed

/-- R163: at any finite capacity the stop bit that would append one frame more is refused, with nothing changed, and
the core's own capacity is the one that BIT and the row use; a 0 or an Error empties the block, full or not. That the
core's own capacity is at least 11 where it is finite is the model's reading of D4 (92_eei_decisions.md: "Any finite value
must be at least 11") against the capacity of 1 in V9's example: log entry 3, DEDUCED; R147 and R163 do not say it. -/
def Obligations.FullBlockRefusesStopBit : Prop :=
  ∀ (ss es : Sample) (s : State), ReadyForBits s → s.fs = .frameStop →
    (∀ c, (framerBit (some c) true ss es s = .refused .blockFull ↔ s.bb.length = c)) ∧
    exec (.bit true ss es) s = complete s (framerBit Config.blockCap true ss es s) ∧
    exec (.bit1FrameStop ss es) s = complete s (framerBit Config.blockCap true ss es s) ∧
    complete s (.refused .blockFull) = .next { s with out := s.out ++ delivery [] (.refused .blockFull) } ∧
    (∀ c, Config.blockCap = some c → 11 ≤ c) ∧
    (∃ t, exec (.bit false ss es) s = .next t ∧ t.bb = [] ∧ t.fs = .idle) ∧
    (∀ u, ∃ t, exec (.err u ss es) s = .next t ∧ t.bb = [] ∧ t.fs = .idle)

/-- R148: a 0 in `FrameStop` is a framing error; both buffers are discarded, the bit is consumed, and the next 0
starts a fresh frame. -/
def Obligations.FramingErrorDiscards : Prop :=
  ∀ (ss es : Sample) (s : State), ReadyForBits s → s.fs = .frameStop →
    let events : List Event :=
      ⟨.framingError, s.fbSs, s.fbEs, 0⟩ ::
        (match s.bb with
          | [] => []
          | f :: fs => [⟨.blockError, f.ss, s.fbEs, (f :: fs).length⟩])
    let discarded : State := { s with
      fs := .idle, fbCnt := 0#4, fbBits := 0#9, fbSs := 0#64, fbEs := 0#64, bb := [],
      out := s.out ++ delivery events .ok }
    exec (.bit0FrameStop ss es) s = .next discarded ∧ exec (.bit false ss es) s = .next discarded ∧
    (∀ ss' es', exec (.bit false ss' es') discarded = .next { s with
      fs := .data, fbCnt := 1#4, fbBits := 0#9, fbSs := ss', fbEs := es', bb := [],
      out := discarded.out ++ delivery [⟨.startBit, ss', es', 0⟩] .ok })

/-- R149: a 1 in `FrameStop2` is the spacer. -/
def Obligations.SpacerBit : Prop :=
  ∀ (ss es : Sample) (s : State), ReadyForBits s → s.fs = .frameStop2 →
    let spaced : State :=
      { s with fs := .blockStop, out := s.out ++ delivery [⟨.spacerBit, ss, es, 1⟩] .ok }
    exec (.bit1FrameStop2 ss es) s = .next spaced ∧ exec (.bit true ss es) s = .next spaced

/-- R151: a 1 in `BlockStop` seals the block and hands it to BlockDecoder over the span from the first frame's start
to the terminator's end; the block buffer is emptied. -/
def Obligations.TerminatorSealsBlock : Prop :=
  ∀ (ss es : Sample) (s : State) (f : Frame) (fs : List Frame), ReadyForBits s → s.fs = .blockStop →
    s.bb = f :: fs →
    let sealed : State := { s with
      fs := .idle, bb := [],
      out := s.out ++ delivery (⟨.blockEnd, ss, es, 1⟩ :: decodeBlock f fs f.ss es) .ok }
    exec (.bit1BlockStop ss es) s = .next sealed ∧ exec (.bit true ss es) s = .next sealed

/-- R153: an Error in any of the five states resets the framer and is reported by one DECODE_ABORT. -/
def Obligations.ErrorResetsFramer : Prop :=
  ∀ (u : ErrorSubtype) (ss es : Sample) (s : State), ReadyForBits s →
    let aborted : State := { s with
      fs := .idle, fbCnt := 0#4, fbBits := 0#9, fbSs := 0#64, fbEs := 0#64, bb := [],
      out := s.out ++ delivery
        [⟨.decodeAbort, ss, es, match u with | .phase => 0 | .invalid => 1⟩] .ok }
    exec (.err u ss es) s = .next aborted ∧ exec (.errAny u ss es) s = .next aborted

/-- R154: the transition table, its three columns: from every state of the framer's invariant each bit, with room in the
block buffer, and each Error, full or not, is answered OK, with the next state and the kinds of event of its row. -/
def Obligations.TransitionTable : Prop :=
  ∀ (ss es : Sample) (s : State), ReadyForBits s → FramerInv s →
    (∀ v : Bool, blockFull Config.blockCap s.bb.length = false →
      ∃ (t : State) (evs : List Event),
        exec (.bit v ss es) s = .next t ∧ t.out = s.out ++ delivery evs .ok ∧
        match s.fs, v with
        | .idle, false => t.fs = .data ∧ evs.map (·.kind) = [.startBit]
        | .idle, true => t.fs = .idle ∧ evs = []
        | .data, _ =>
          t.fs = (if s.fbCnt = 8#4 then FramerState.frameStop else FramerState.data) ∧
            evs.map (·.kind) = [.dataBit]
        | .frameStop, false =>
          t.fs = .idle ∧
            evs.map (·.kind) = (if s.bb = [] then [.framingError] else [.framingError, .blockError])
        | .frameStop, true => t.fs = .frameStop2 ∧ evs.map (·.kind) = [.stopBit, .frame]
        | .frameStop2, false => t.fs = .data ∧ evs.map (·.kind) = [.startBit]
        | .frameStop2, true => t.fs = .blockStop ∧ evs.map (·.kind) = [.spacerBit]
        | .blockStop, false => t.fs = .data ∧ evs.map (·.kind) = [.startBit]
        | .blockStop, true => t.fs = .idle ∧ (evs.map (·.kind)).take 2 = [.blockEnd, .block]) ∧
    (∀ u : ErrorSubtype, ∃ (t : State) (evs : List Event),
      exec (.err u ss es) s = .next t ∧ t.out = s.out ++ delivery evs .ok ∧
      t.fs = .idle ∧ evs.map (·.kind) = [.decodeAbort])

/-- Where the model stops (the model's choices, log entries 4 and 6): a row that the framer state does not select is
refused by name, and a data bit beyond the buffer and a terminator of an empty block fault. (`CoreNeverStops` says that no
reachable state steps to any of them.) -/
def Obligations.StopsOfTheModel : Prop :=
  ∀ (ss es : Sample) (s : State), ReadyForBits s →
    (∀ (i : Instr) (q : FramerState), i.selector = some q → s.fs ≠ q → exec i s = .refused (.rowNotSelected q)) ∧
    (∀ v, s.fs = .data → 8 < s.fbCnt.toNat → exec (.bit v ss es) s = .fault .frameBufferOverrun) ∧
    (s.fs = .blockStop → s.bb = [] → exec (.bit true ss es) s = .fault .emptyBlock)

/-- R26, R36: BIT, ERR and every transition row leave the session, the configuration, the classifier's registers
and the input stream as they are. -/
def Obligations.FramerItemsFrame : Prop :=
  ∀ (i : Instr) (s t : State), (∀ p m r, i ≠ .cfg p m r) → (∀ u, i ≠ .edge u) → exec i s = .next t →
    t.session = s.session ∧ t.profile = s.profile ∧ t.mode = s.mode ∧ t.rate = s.rate ∧ t.ahc = s.ahc ∧
    t.ihc = s.ihc ∧ t.margin = s.margin ∧ t.e1v = s.e1v ∧ t.e1 = s.e1 ∧ t.e2 = s.e2 ∧ t.pk = s.pk ∧
    t.inp = s.inp

/-- R147, R151, R161: a FRAME event is emitted, and a frame appended, only where a Bit 1 meets `FrameStop`; a BLOCK event
is emitted only where a Bit 1 meets `BlockStop`, over the span from the first frame's start to that Bit's end, and carries
the number of frames in the block. The Bit is that of a BIT item, of a row of it, or of an EDGE that completes a pair. -/
def Obligations.FramesAndBlocksOnlyAtTheirBits : Prop :=
  ∀ (i : Instr) (s t : State) (evs : List Event) (r : Response),
    exec i s = .next t → t.out = s.out ++ delivery evs r →
    (∀ e ∈ evs, e.kind = .frame →
      (∃ ss, FeedsBit i s true ss e.es) ∧
      s.fs = .frameStop ∧ t.fs = .frameStop2 ∧ t.bb = s.bb ++ [⟨packByte s.fbBits, s.fbSs, e.es⟩] ∧
      e.ss = s.fbSs ∧ e.val = (packByte s.fbBits).toNat) ∧
    (s.bb.length < t.bb.length → ∃ e ∈ evs, e.kind = .frame) ∧
    (∀ e ∈ evs, e.kind = .block →
      (∃ ss, FeedsBit i s true ss e.es) ∧
      s.fs = .blockStop ∧ t.fs = .idle ∧ t.bb = [] ∧ e.val = s.bb.length ∧ s.bb.head?.map (·.ss) = some e.ss)

/-- R156: ten bits `0, d0..d7, 1`, with any spans, from any state in which a 0 is a start bit, give exactly one FRAME,
whose value is the byte with `d0` least significant; the frame joins the block. -/
def Obligations.TenBitsGiveOneFrame : Prop :=
  ∀ (byte : Byte) (a b : Fin 10 → Sample) (s : State), ReadyForBits s →
    s.fs = .idle ∨ s.fs = .frameStop2 ∨ s.fs = .blockStop →
    blockFull Config.blockCap s.bb.length = false →
    ∃ (t : State) (added : List Output),
      execAll ((List.finRange 10).map fun i : Fin 10 => .bit (frameBit byte i.val) (a i) (b i)) s = .next t ∧
      t.out = s.out ++ added ∧
      (added.filterMap Output.event?).filter (fun e => e.kind == .frame)
        = [⟨.frame, a 0, b 9, byte.toNat⟩] ∧
      (∀ o ∈ added, o.response? ≠ some .ok → ∃ e, o = .event e ∧ e.kind ≠ .framingError) ∧
      t.fs = .frameStop2 ∧ t.bb = s.bb ++ [⟨byte, a 0, b 9⟩] ∧
      t.fbCnt = 0#4 ∧ t.fbBits = 0#9 ∧ t.fbSs = 0#64 ∧ t.fbEs = 0#64

/-! ## BlockDecoder -/

/-- R173, R175: the checksum. With `S` the sum of the bytes, the accumulator is `255 - S`; the block is valid exactly
when `S mod 256 = 255`, which is the verdict of an 8-bit wrapping accumulator; the reported value; the byte that makes a
block valid; and one changed byte of a valid block makes it invalid. -/
def Obligations.ChecksumLaws : Prop :=
  let sum (l : List Frame) : Nat := (l.map fun f => f.byte.toNat).sum
  (∀ l : List Frame,
    checksumAcc l = 255 - (sum l : Int) ∧
    checksumValue l = (255 - (sum l : Int)).natAbs % 256 ∧
    (checksumValue l = 0 ↔ sum l % 256 = 255) ∧
    (checksumValue l = 0 ↔ (255 - (sum l : Int)) % 256 = 0) ∧
    (checksumAcc l < 0 → checksumValue l = (sum l - 255) % 256) ∧
    (0 ≤ checksumAcc l → checksumAcc l = checksumValue l)) ∧
  (∀ (l : List Frame) (f : Frame),
    checksumValue (l ++ [f]) = 0 ↔ (f.byte.toNat : Int) = (255 - (sum l : Int)) % 256) ∧
  (∀ (l₁ l₂ : List Frame) (f g : Frame), checksumValue (l₁ ++ f :: l₂) = 0 → g.byte ≠ f.byte →
    checksumValue (l₁ ++ g :: l₂) ≠ 0)

/-- R170 to R174, R176 to R179: all the events of a sealed block, in order, for a block of one frame and for a block
of a first frame, a payload and a last frame. -/
def Obligations.SealedBlockEvents : Prop :=
  let sum (l : List Frame) : Nat := (l.map fun f => f.byte.toNat).sum
  let ck (l : List Frame) : Nat := (255 - (sum l : Int)).natAbs % 256
  let events (l : List Frame) (first last : Frame) (bss bes : Sample) : List Event :=
    [⟨.block, bss, bes, l.length⟩] ++
    (if first.byte = 0x02#8 ∧ l.length ≠ 11 then [⟨.badLength, bss, bes, l.length⟩] else []) ++
    (if ck l = 0 then [⟨.goodChecksum, last.ss, last.es, 0⟩] else [⟨.badChecksum, bss, bes, ck l⟩]) ++
    [⟨.blockType, first.ss, first.es, first.byte.toNat⟩] ++
    (if first.byte = 0x02#8 then [⟨.blockTypeName, first.ss, first.es, 2⟩]
      else [⟨.unknownType, first.ss, first.es, first.byte.toNat⟩]) ++
    [⟨.checksumField, last.ss, last.es, last.byte.toNat⟩]
  (∀ (f : Frame) (bss bes : Sample), decodeBlock f [] bss bes = events [f] f f bss bes) ∧
  (∀ (first last : Frame) (payload : List Frame) (bss bes : Sample),
    decodeBlock first (payload ++ [last]) bss bes =
      events (first :: payload ++ [last]) first last bss bes ++
        payload.mapIdx fun n f => ⟨.dataByte, f.ss, f.es, n * 256 + f.byte.toNat⟩)

/-- R179's table of corner cases, values only (the first event is the BLOCK). -/
def Obligations.SealedBlockCornerCases : Prop :=
  let run (b : Byte) (bs : List Byte) : List (EventKind × Nat) :=
    (decodeBlock ⟨b, 0#64, 0#64⟩ (bs.map fun x => ⟨x, 0#64, 0#64⟩) 0#64 0#64).map fun e => (e.kind, e.val)
  run 0xFF#8 [] = [(.block, 1), (.goodChecksum, 0), (.blockType, 0xFF), (.unknownType, 0xFF),
    (.checksumField, 0xFF)] ∧
  run 0x02#8 [] = [(.block, 1), (.badLength, 1), (.badChecksum, 253), (.blockType, 0x02),
    (.blockTypeName, 0x02), (.checksumField, 0x02)] ∧
  run 0x02#8 [0xFD#8] = [(.block, 2), (.badLength, 2), (.goodChecksum, 0), (.blockType, 0x02),
    (.blockTypeName, 0x02), (.checksumField, 0xFD)] ∧
  run 0x07#8 [0x10#8, 0xE8#8] = [(.block, 3), (.goodChecksum, 0), (.blockType, 0x07), (.unknownType, 0x07),
    (.checksumField, 0xE8), (.dataByte, 0x10)] ∧
  run 0xFF#8 [0xFF#8, 0x01#8] = [(.block, 3), (.goodChecksum, 0), (.blockType, 0xFF), (.unknownType, 0xFF),
    (.checksumField, 0x01), (.dataByte, 0xFF)] ∧
  run 0xFF#8 [0xFF#8, 0x02#8] = [(.block, 3), (.badChecksum, 1), (.blockType, 0xFF), (.unknownType, 0xFF),
    (.checksumField, 0x02), (.dataByte, 0xFF)]

/-- R180: a TAGGER-STATUS block of 11 frames with a correct checksum yields no diagnostic, one type label and name,
nine payload labels 0..8 and one valid checksum; with 10 frames, exactly one BAD_LENGTH(10), the checksum verdict of its
ten bytes, and eight payload labels. Stated of the terminator's step. -/
def Obligations.TaggerStatusBlock : Prop :=
  ∀ (ss es : Sample) (s : State) (f : Frame) (fs : List Frame), ReadyForBits s → s.fs = .blockStop →
    s.bb = f :: fs → f.byte = 0x02#8 →
    ∃ (t : State) (evs : List Event),
      exec (.bit true ss es) s = .next t ∧ t.out = s.out ++ delivery evs .ok ∧
      let valsOf (k : EventKind) : List Nat := (evs.filter fun e => e.kind == k).map (·.val)
      (fs.length = 10 → ((f :: fs).map fun g => g.byte.toNat).sum % 256 = 255 →
        (∀ e ∈ evs, e.kind.diagnostic = false) ∧ valsOf .block = [11] ∧ valsOf .goodChecksum = [0] ∧
        valsOf .blockType = [2] ∧ valsOf .blockTypeName = [2] ∧
        (valsOf .checksumField).length = 1 ∧ (valsOf .dataByte).map (· / 256) = List.range 9) ∧
      (fs.length = 9 →
        valsOf .badLength = [10] ∧ (valsOf .dataByte).map (· / 256) = List.range 8 ∧
        (if ((f :: fs).map fun g => g.byte.toNat).sum % 256 = 255
          then valsOf .goodChecksum = [0] ∧ valsOf .badChecksum = []
          else valsOf .goodChecksum = [] ∧ (valsOf .badChecksum).length = 1))

/-- R238: how many events the sealing step emits for a block of `n` frames: `max(n, 2) + 4`, one more with BAD_LENGTH. -/
def Obligations.SealingStepEventCount : Prop :=
  ∀ (ss es : Sample) (s : State) (f : Frame) (fs : List Frame), ReadyForBits s → s.fs = .blockStop →
    s.bb = f :: fs →
    ∃ (t : State) (evs : List Event),
      exec (.bit true ss es) s = .next t ∧ t.out = s.out ++ delivery evs .ok ∧
      evs.length = max s.bb.length 2 + 4 + (if f.byte = 0x02#8 ∧ s.bb.length ≠ 11 then 1 else 0)

/-! ## The whole machine -/

/-- R39, R221: the reset state meets the invariants. `Inv` is R39's table without its one clause on history, that two EDGE
items were accepted before `PK` is set (log entry 15). -/
def Obligations.ResetMeetsInvariants : Prop :=
  Inv State.reset ∧ ConfigInv State.reset ∧ CapacityInv Config.blockCap State.reset ∧ FrameCountInv 0 State.reset

/-- R39: every step, from any state that meets the conditions of R39's table on a state, gives a state that meets them. The
one clause left out, that two EDGE items were accepted before `PK` is set, is history, which a state does not hold (log
entry 15). -/
def Obligations.StepKeepsInvariant : Prop :=
  ∀ s t : State, Inv s → step s = .next t → Inv t

/-- R34, R102: every step keeps the thresholds those of the profile and the rate. -/
def Obligations.StepKeepsThresholds : Prop :=
  ∀ s t : State, ConfigInv s → step s = .next t → ConfigInv t

/-- R20, R163: at every capacity the spec allows, a block buffer never holds more frames. -/
def Obligations.StepKeepsCapacity : Prop :=
  ∀ s t : State, CapacityInv Config.blockCap s → step s = .next t → CapacityInv Config.blockCap t

/-- R58, R154, R205: from every state that meets the invariant (R39 without its clause on history, log entry 15) the step
answers a next state: the core never stops, whatever the host supplies. -/
def Obligations.CoreNeverStops : Prop :=
  (∀ s : State, Inv s → ∃ t, step s = .next t ∧ Inv t) ∧
  (∀ s : State, Reachable s → Inv s ∧ ConfigInv s ∧ CapacityInv Config.blockCap s ∧ ∃ t, step s = .next t)

/-- R30, R31 to R34, R61, R237: a step on anything but a reset leaves the session, the profile, the mode, the rate and
the thresholds as they are, unless it is a CFG item in an unconfigured session. -/
def Obligations.ConfigurationFixedForTheRun : Prop :=
  ∀ s t : State, step s = .next t → (∀ rest, s.inp ≠ .reset :: rest) →
    (t.session = s.session ∧ t.profile = s.profile ∧ t.mode = s.mode ∧ t.rate = s.rate ∧ t.ahc = s.ahc ∧
      t.ihc = s.ihc ∧ t.margin = s.margin) ∨
    (s.session = .unconfigured ∧ ∃ w rest p m r, s.inp = .item w :: rest ∧ decode w = .item (.cfg p m r) ∧
      t.session = (if r.toNat < 16000 then Session.halted else Session.running))

/-- R112, R208: in a halted session every item is refused, with nothing changed, for ever until a reset. -/
def Obligations.HaltedRefusesEverything : Prop :=
  ∀ s t : State, s.session = .halted → step s = .next t → (∀ rest, s.inp ≠ .reset :: rest) →
    SameCore s t ∧
    (∀ w rest, s.inp = .item w :: rest → ∃ q, t.out = s.out ++ delivery [] (.refused q) ∧
      ((∃ i, decode w = .item i) → q = .halted))

/-- R165: within a session, the number of frames in the block buffer is the number of FRAME events since the framer last
returned to `Idle`. Every step keeps it, an assertion of reset included, which begins a session with nothing delivered and an
empty block; and the count in a BLOCK event is that number, and is not 0. -/
def Obligations.BlockCountIsFrameEvents : Prop :=
  ∀ (s t : State) (mark : Nat), FrameCountInv mark s → step s = .next t →
    FrameCountInv (sessionMark mark s) t ∧
    ∃ added : List Output, t.out = s.out ++ added ∧
      ∀ e, Output.event e ∈ added → e.kind = .block →
        e.val = framesInProgress 0 (s.out.drop mark) ∧ 1 ≤ e.val

/-- R198: one item raises at most one of a FAULT response, an abort, a framing error and the sealing of a block. -/
def Obligations.AtMostOneConditionPerItem : Prop :=
  ∀ (i : Instr) (s t : State) (evs : List Event) (r : Response),
    exec i s = .next t → t.out = s.out ++ delivery evs r →
    (∀ c, r = .fault c → evs = []) ∧
    (evs.filter fun e => e.kind == .decodeAbort || e.kind == .framingError || e.kind == .block).length ≤ 1
end

