-- ==== Sys2Proof/Laws/Decoder.lean ====
section
/-!
SUPPORT. What the parts of BlockDecoder answer, each said once.
-/

namespace Sys2Proof.Machine

/-- The table of known types has one row (R8). -/
theorem knownType_known : knownType? 0x02#8 = some ⟨0x02#8, "TAGGER-STATUS", 11⟩ := by
  simp [knownType?, knownTypes]

theorem knownType_unknown {t : Byte} (h : t ≠ 0x02#8) : knownType? t = none := by
  simp [knownType?, knownTypes, h.symm]

theorem checkLength_known (n : Nat) (bss bes : Sample) :
    checkLength 0x02#8 n bss bes = if n = 11 then [] else [⟨.badLength, bss, bes, n⟩] := by
  simp [checkLength, knownType_known]

theorem checkLength_unknown {t : Byte} (h : t ≠ 0x02#8) (n : Nat) (bss bes : Sample) :
    checkLength t n bss bes = [] := by
  simp [checkLength, knownType_unknown h]

/-- One frame subtracted first or last: the pass is a sum. -/
theorem foldl_sub_eq (frames : List Frame) (a : Int) :
    frames.foldl (fun acc f => acc - (f.byte.toNat : Int)) a
      = a - ((frames.map fun f => f.byte.toNat).sum : Nat) := by
  induction frames generalizing a with
  | nil => simp
  | cons f fs ih => simp only [List.foldl_cons, ih, List.map_cons, List.sum_cons]; push_cast; ring

theorem payloadLabels_length (n : Nat) (fs : List Frame) : (payloadLabels n fs).length = fs.length := by
  induction fs generalizing n with
  | nil => rfl
  | cons f fs ih => simp [payloadLabels, ih]

/-- The label of the `i`-th payload byte of the list carries the index `n + i`. -/
theorem payloadLabels_getElem? (n i : Nat) (fs : List Frame) :
    (payloadLabels n fs)[i]? = fs[i]?.map fun f => ⟨.dataByte, f.ss, f.es, dataByteVal (n + i) f.byte⟩ := by
  induction fs generalizing n i with
  | nil => simp [payloadLabels]
  | cons f fs ih =>
    cases i with
    | zero => simp [payloadLabels]
    | succ i =>
      have h : n + 1 + i = n + (i + 1) := by omega
      simp only [payloadLabels, List.getElem?_cons_succ, ih, h]

/-- The checksum frame of a block of two frames or more is its last one. -/
theorem lastFrame_append (first last : Frame) (mid : List Frame) :
    lastFrame first (mid ++ [last]) = last := by
  simp [lastFrame, List.getLastD_eq_getLast?]

theorem lastFrame_alone (first : Frame) : lastFrame first [] = first := rfl

/-- The payload labels as one map over the payload with its indexes (R178). -/
theorem payloadLabels_eq_mapIdx (n : Nat) (fs : List Frame) :
    payloadLabels n fs
      = fs.mapIdx fun i f => ⟨.dataByte, f.ss, f.es, (n + i) * 256 + f.byte.toNat⟩ := by
  induction fs generalizing n with
  | nil => rfl
  | cons f fs ih => simp [payloadLabels, List.mapIdx_cons, ih, dataByteVal, Nat.add_assoc, Nat.add_comm 1]

theorem payloadLabels_kind {n : Nat} {fs : List Frame} {e : Event} (h : e ∈ payloadLabels n fs) :
    e.kind = .dataByte := by
  rw [payloadLabels_eq_mapIdx] at h
  obtain ⟨i, hi, rfl⟩ := List.mem_mapIdx.mp h
  rfl

/-- The events of a sealed block: the BLOCK event first, then none that BitFramer emits and no second BLOCK. -/
theorem decodeBlock_kinds (first : Frame) (rest : List Frame) (bss bes : Sample) :
    ∃ l : List Event, decodeBlock first rest bss bes = ⟨.block, bss, bes, rest.length + 1⟩ :: l ∧
      ∀ e ∈ l, e.kind ∈ [EventKind.badLength, .badChecksum, .goodChecksum, .blockType, .blockTypeName,
        .unknownType, .checksumField, .dataByte] := by
  refine ⟨_, rfl, fun e he => ?_⟩
  simp only [List.mem_append, extractFields, List.mem_cons, typeLabels] at he
  rcases he with (he | he) | (he | he) | he | he
  · unfold checkLength at he
    split at he
    · split at he
      · simp at he
      · simp at he; subst he; simp
    · simp at he
  · unfold checkChecksum at he
    split at he <;> simp at he <;> subst he <;> simp
  · subst he; simp
  · split at he <;> simp at he <;> subst he <;> simp
  · subst he; simp [checksumLabel]
  · simp [payloadLabels_kind he]

end Sys2Proof.Machine
end

