-- ==== Sys2Proof/Laws/Encoding.lean ====
section
/-!
SUPPORT. The four parts of an item word, read back (R71).
-/

namespace Sys2Proof

theorem itemOp_itemWord (op arg : BitVec 4) (a b : BitVec 64) : itemOp (itemWord op arg a b) = op := by
  apply BitVec.eq_of_getLsbD_eq
  intro i hi
  have h1 : ¬ 132 + i < 64 := by omega
  have h2 : ¬ 132 + i - 64 < 64 := by omega
  have h3 : ¬ 132 + i - 64 - 64 < 4 := by omega
  have h4 : 132 + i - 64 - 64 - 4 = i := by omega
  rw [itemOp, itemWord, BitVec.getLsbD_extractLsb', BitVec.getLsbD_append, BitVec.getLsbD_append,
    BitVec.getLsbD_append, if_neg h1, if_neg h2, if_neg h3, h4]
  simp [hi]

theorem itemArg_itemWord (op arg : BitVec 4) (a b : BitVec 64) : itemArg (itemWord op arg a b) = arg := by
  apply BitVec.eq_of_getLsbD_eq
  intro i hi
  have h1 : ¬ 128 + i < 64 := by omega
  have h2 : ¬ 128 + i - 64 < 64 := by omega
  have h3 : 128 + i - 64 - 64 < 4 := by omega
  have h4 : 128 + i - 64 - 64 = i := by omega
  rw [itemArg, itemWord, BitVec.getLsbD_extractLsb', BitVec.getLsbD_append, BitVec.getLsbD_append,
    BitVec.getLsbD_append, if_neg h1, if_neg h2, if_pos h3, h4]
  simp [hi]

theorem itemA_itemWord (op arg : BitVec 4) (a b : BitVec 64) : itemA (itemWord op arg a b) = a := by
  apply BitVec.eq_of_getLsbD_eq
  intro i hi
  have h1 : ¬ 64 + i < 64 := by omega
  have h2 : 64 + i - 64 < 64 := by omega
  have h3 : 64 + i - 64 = i := by omega
  rw [itemA, itemWord, BitVec.getLsbD_extractLsb', BitVec.getLsbD_append, BitVec.getLsbD_append,
    if_neg h1, if_pos h2, h3]
  simp [hi]

theorem itemB_itemWord (op arg : BitVec 4) (a b : BitVec 64) : itemB (itemWord op arg a b) = b := by
  apply BitVec.eq_of_getLsbD_eq
  intro i hi
  have h1 : 0 + i < 64 := by omega
  rw [itemB, itemWord, BitVec.getLsbD_extractLsb', BitVec.getLsbD_append, if_pos h1]
  simp [hi]

/-- A word is its four parts put together. -/
theorem itemWord_parts (w : ItemWord) : itemWord (itemOp w) (itemArg w) (itemA w) (itemB w) = w := by
  apply BitVec.eq_of_getLsbD_eq
  intro i hi
  rw [itemWord, BitVec.getLsbD_append, BitVec.getLsbD_append, BitVec.getLsbD_append]
  have hw : i < 136 := hi
  by_cases h1 : i < 64
  · rw [if_pos h1, itemB, BitVec.getLsbD_extractLsb']
    simp [h1]
  · rw [if_neg h1]
    by_cases h2 : i - 64 < 64
    · have h : 64 + (i - 64) = i := by omega
      rw [if_pos h2, itemA, BitVec.getLsbD_extractLsb', h]
      simp [h2]
    · rw [if_neg h2]
      by_cases h3 : i - 64 - 64 < 4
      · have h : 128 + (i - 64 - 64) = i := by omega
        rw [if_pos h3, itemArg, BitVec.getLsbD_extractLsb', h]
        simp [h3]
      · have h4 : i - 64 - 64 - 4 < 4 := by omega
        have h : 132 + (i - 64 - 64 - 4) = i := by omega
        rw [if_neg h3, itemOp, BitVec.getLsbD_extractLsb', h]
        simp [h4]

end Sys2Proof
end

