-- ==== Sys2Proof/Laws/State.lean ====
section
/-!
SUPPORT. The small lemmas of the state updates: for each update, what every field of State reads after it.
-/

namespace Sys2Proof.Machine

/-! ### `State.emit` -/

@[simp] theorem State.emit_session (e : Event) (s : State) : (s.emit e).session = s.session := rfl
@[simp] theorem State.emit_profile (e : Event) (s : State) : (s.emit e).profile = s.profile := rfl
@[simp] theorem State.emit_mode (e : Event) (s : State) : (s.emit e).mode = s.mode := rfl
@[simp] theorem State.emit_rate (e : Event) (s : State) : (s.emit e).rate = s.rate := rfl
@[simp] theorem State.emit_ahc (e : Event) (s : State) : (s.emit e).ahc = s.ahc := rfl
@[simp] theorem State.emit_ihc (e : Event) (s : State) : (s.emit e).ihc = s.ihc := rfl
@[simp] theorem State.emit_margin (e : Event) (s : State) : (s.emit e).margin = s.margin := rfl
@[simp] theorem State.emit_e1v (e : Event) (s : State) : (s.emit e).e1v = s.e1v := rfl
@[simp] theorem State.emit_e1 (e : Event) (s : State) : (s.emit e).e1 = s.e1 := rfl
@[simp] theorem State.emit_e2 (e : Event) (s : State) : (s.emit e).e2 = s.e2 := rfl
@[simp] theorem State.emit_pk (e : Event) (s : State) : (s.emit e).pk = s.pk := rfl
@[simp] theorem State.emit_fs (e : Event) (s : State) : (s.emit e).fs = s.fs := rfl
@[simp] theorem State.emit_fbCnt (e : Event) (s : State) : (s.emit e).fbCnt = s.fbCnt := rfl
@[simp] theorem State.emit_fbBits (e : Event) (s : State) : (s.emit e).fbBits = s.fbBits := rfl
@[simp] theorem State.emit_fbSs (e : Event) (s : State) : (s.emit e).fbSs = s.fbSs := rfl
@[simp] theorem State.emit_fbEs (e : Event) (s : State) : (s.emit e).fbEs = s.fbEs := rfl
@[simp] theorem State.emit_bb (e : Event) (s : State) : (s.emit e).bb = s.bb := rfl
@[simp] theorem State.emit_inp (e : Event) (s : State) : (s.emit e).inp = s.inp := rfl
@[simp] theorem State.emit_out (e : Event) (s : State) : (s.emit e).out = s.out ++ [.event e] := rfl

/-! ### `State.emitAll` -/

@[simp] theorem State.emitAll_session (es : List Event) (s : State) : (s.emitAll es).session = s.session := rfl
@[simp] theorem State.emitAll_profile (es : List Event) (s : State) : (s.emitAll es).profile = s.profile := rfl
@[simp] theorem State.emitAll_mode (es : List Event) (s : State) : (s.emitAll es).mode = s.mode := rfl
@[simp] theorem State.emitAll_rate (es : List Event) (s : State) : (s.emitAll es).rate = s.rate := rfl
@[simp] theorem State.emitAll_ahc (es : List Event) (s : State) : (s.emitAll es).ahc = s.ahc := rfl
@[simp] theorem State.emitAll_ihc (es : List Event) (s : State) : (s.emitAll es).ihc = s.ihc := rfl
@[simp] theorem State.emitAll_margin (es : List Event) (s : State) : (s.emitAll es).margin = s.margin := rfl
@[simp] theorem State.emitAll_e1v (es : List Event) (s : State) : (s.emitAll es).e1v = s.e1v := rfl
@[simp] theorem State.emitAll_e1 (es : List Event) (s : State) : (s.emitAll es).e1 = s.e1 := rfl
@[simp] theorem State.emitAll_e2 (es : List Event) (s : State) : (s.emitAll es).e2 = s.e2 := rfl
@[simp] theorem State.emitAll_pk (es : List Event) (s : State) : (s.emitAll es).pk = s.pk := rfl
@[simp] theorem State.emitAll_fs (es : List Event) (s : State) : (s.emitAll es).fs = s.fs := rfl
@[simp] theorem State.emitAll_fbCnt (es : List Event) (s : State) : (s.emitAll es).fbCnt = s.fbCnt := rfl
@[simp] theorem State.emitAll_fbBits (es : List Event) (s : State) : (s.emitAll es).fbBits = s.fbBits := rfl
@[simp] theorem State.emitAll_fbSs (es : List Event) (s : State) : (s.emitAll es).fbSs = s.fbSs := rfl
@[simp] theorem State.emitAll_fbEs (es : List Event) (s : State) : (s.emitAll es).fbEs = s.fbEs := rfl
@[simp] theorem State.emitAll_bb (es : List Event) (s : State) : (s.emitAll es).bb = s.bb := rfl
@[simp] theorem State.emitAll_inp (es : List Event) (s : State) : (s.emitAll es).inp = s.inp := rfl
@[simp] theorem State.emitAll_out (es : List Event) (s : State) : (s.emitAll es).out = s.out ++ es.map .event := rfl

/-! ### `State.respond` -/

@[simp] theorem State.respond_session (r : Response) (s : State) : (s.respond r).session = s.session := rfl
@[simp] theorem State.respond_profile (r : Response) (s : State) : (s.respond r).profile = s.profile := rfl
@[simp] theorem State.respond_mode (r : Response) (s : State) : (s.respond r).mode = s.mode := rfl
@[simp] theorem State.respond_rate (r : Response) (s : State) : (s.respond r).rate = s.rate := rfl
@[simp] theorem State.respond_ahc (r : Response) (s : State) : (s.respond r).ahc = s.ahc := rfl
@[simp] theorem State.respond_ihc (r : Response) (s : State) : (s.respond r).ihc = s.ihc := rfl
@[simp] theorem State.respond_margin (r : Response) (s : State) : (s.respond r).margin = s.margin := rfl
@[simp] theorem State.respond_e1v (r : Response) (s : State) : (s.respond r).e1v = s.e1v := rfl
@[simp] theorem State.respond_e1 (r : Response) (s : State) : (s.respond r).e1 = s.e1 := rfl
@[simp] theorem State.respond_e2 (r : Response) (s : State) : (s.respond r).e2 = s.e2 := rfl
@[simp] theorem State.respond_pk (r : Response) (s : State) : (s.respond r).pk = s.pk := rfl
@[simp] theorem State.respond_fs (r : Response) (s : State) : (s.respond r).fs = s.fs := rfl
@[simp] theorem State.respond_fbCnt (r : Response) (s : State) : (s.respond r).fbCnt = s.fbCnt := rfl
@[simp] theorem State.respond_fbBits (r : Response) (s : State) : (s.respond r).fbBits = s.fbBits := rfl
@[simp] theorem State.respond_fbSs (r : Response) (s : State) : (s.respond r).fbSs = s.fbSs := rfl
@[simp] theorem State.respond_fbEs (r : Response) (s : State) : (s.respond r).fbEs = s.fbEs := rfl
@[simp] theorem State.respond_bb (r : Response) (s : State) : (s.respond r).bb = s.bb := rfl
@[simp] theorem State.respond_inp (r : Response) (s : State) : (s.respond r).inp = s.inp := rfl
@[simp] theorem State.respond_out (r : Response) (s : State) : (s.respond r).out = s.out ++ [.response r] := rfl

/-! ### `State.clearFrame` -/

@[simp] theorem State.clearFrame_session (s : State) : s.clearFrame.session = s.session := rfl
@[simp] theorem State.clearFrame_profile (s : State) : s.clearFrame.profile = s.profile := rfl
@[simp] theorem State.clearFrame_mode (s : State) : s.clearFrame.mode = s.mode := rfl
@[simp] theorem State.clearFrame_rate (s : State) : s.clearFrame.rate = s.rate := rfl
@[simp] theorem State.clearFrame_ahc (s : State) : s.clearFrame.ahc = s.ahc := rfl
@[simp] theorem State.clearFrame_ihc (s : State) : s.clearFrame.ihc = s.ihc := rfl
@[simp] theorem State.clearFrame_margin (s : State) : s.clearFrame.margin = s.margin := rfl
@[simp] theorem State.clearFrame_e1v (s : State) : s.clearFrame.e1v = s.e1v := rfl
@[simp] theorem State.clearFrame_e1 (s : State) : s.clearFrame.e1 = s.e1 := rfl
@[simp] theorem State.clearFrame_e2 (s : State) : s.clearFrame.e2 = s.e2 := rfl
@[simp] theorem State.clearFrame_pk (s : State) : s.clearFrame.pk = s.pk := rfl
@[simp] theorem State.clearFrame_fs (s : State) : s.clearFrame.fs = s.fs := rfl
@[simp] theorem State.clearFrame_fbCnt (s : State) : s.clearFrame.fbCnt = 0#4 := rfl
@[simp] theorem State.clearFrame_fbBits (s : State) : s.clearFrame.fbBits = 0#9 := rfl
@[simp] theorem State.clearFrame_fbSs (s : State) : s.clearFrame.fbSs = 0#64 := rfl
@[simp] theorem State.clearFrame_fbEs (s : State) : s.clearFrame.fbEs = 0#64 := rfl
@[simp] theorem State.clearFrame_bb (s : State) : s.clearFrame.bb = s.bb := rfl
@[simp] theorem State.clearFrame_inp (s : State) : s.clearFrame.inp = s.inp := rfl
@[simp] theorem State.clearFrame_out (s : State) : s.clearFrame.out = s.out := rfl

/-! ### `State.clearBlock` -/

@[simp] theorem State.clearBlock_session (s : State) : s.clearBlock.session = s.session := rfl
@[simp] theorem State.clearBlock_profile (s : State) : s.clearBlock.profile = s.profile := rfl
@[simp] theorem State.clearBlock_mode (s : State) : s.clearBlock.mode = s.mode := rfl
@[simp] theorem State.clearBlock_rate (s : State) : s.clearBlock.rate = s.rate := rfl
@[simp] theorem State.clearBlock_ahc (s : State) : s.clearBlock.ahc = s.ahc := rfl
@[simp] theorem State.clearBlock_ihc (s : State) : s.clearBlock.ihc = s.ihc := rfl
@[simp] theorem State.clearBlock_margin (s : State) : s.clearBlock.margin = s.margin := rfl
@[simp] theorem State.clearBlock_e1v (s : State) : s.clearBlock.e1v = s.e1v := rfl
@[simp] theorem State.clearBlock_e1 (s : State) : s.clearBlock.e1 = s.e1 := rfl
@[simp] theorem State.clearBlock_e2 (s : State) : s.clearBlock.e2 = s.e2 := rfl
@[simp] theorem State.clearBlock_pk (s : State) : s.clearBlock.pk = s.pk := rfl
@[simp] theorem State.clearBlock_fs (s : State) : s.clearBlock.fs = s.fs := rfl
@[simp] theorem State.clearBlock_fbCnt (s : State) : s.clearBlock.fbCnt = s.fbCnt := rfl
@[simp] theorem State.clearBlock_fbBits (s : State) : s.clearBlock.fbBits = s.fbBits := rfl
@[simp] theorem State.clearBlock_fbSs (s : State) : s.clearBlock.fbSs = s.fbSs := rfl
@[simp] theorem State.clearBlock_fbEs (s : State) : s.clearBlock.fbEs = s.fbEs := rfl
@[simp] theorem State.clearBlock_bb (s : State) : s.clearBlock.bb = [] := rfl
@[simp] theorem State.clearBlock_inp (s : State) : s.clearBlock.inp = s.inp := rfl
@[simp] theorem State.clearBlock_out (s : State) : s.clearBlock.out = s.out := rfl

/-! ### `State.appendFrame` -/

@[simp] theorem State.appendFrame_session (f : Frame) (s : State) : (s.appendFrame f).session = s.session := rfl
@[simp] theorem State.appendFrame_profile (f : Frame) (s : State) : (s.appendFrame f).profile = s.profile := rfl
@[simp] theorem State.appendFrame_mode (f : Frame) (s : State) : (s.appendFrame f).mode = s.mode := rfl
@[simp] theorem State.appendFrame_rate (f : Frame) (s : State) : (s.appendFrame f).rate = s.rate := rfl
@[simp] theorem State.appendFrame_ahc (f : Frame) (s : State) : (s.appendFrame f).ahc = s.ahc := rfl
@[simp] theorem State.appendFrame_ihc (f : Frame) (s : State) : (s.appendFrame f).ihc = s.ihc := rfl
@[simp] theorem State.appendFrame_margin (f : Frame) (s : State) : (s.appendFrame f).margin = s.margin := rfl
@[simp] theorem State.appendFrame_e1v (f : Frame) (s : State) : (s.appendFrame f).e1v = s.e1v := rfl
@[simp] theorem State.appendFrame_e1 (f : Frame) (s : State) : (s.appendFrame f).e1 = s.e1 := rfl
@[simp] theorem State.appendFrame_e2 (f : Frame) (s : State) : (s.appendFrame f).e2 = s.e2 := rfl
@[simp] theorem State.appendFrame_pk (f : Frame) (s : State) : (s.appendFrame f).pk = s.pk := rfl
@[simp] theorem State.appendFrame_fs (f : Frame) (s : State) : (s.appendFrame f).fs = s.fs := rfl
@[simp] theorem State.appendFrame_fbCnt (f : Frame) (s : State) : (s.appendFrame f).fbCnt = s.fbCnt := rfl
@[simp] theorem State.appendFrame_fbBits (f : Frame) (s : State) : (s.appendFrame f).fbBits = s.fbBits := rfl
@[simp] theorem State.appendFrame_fbSs (f : Frame) (s : State) : (s.appendFrame f).fbSs = s.fbSs := rfl
@[simp] theorem State.appendFrame_fbEs (f : Frame) (s : State) : (s.appendFrame f).fbEs = s.fbEs := rfl
@[simp] theorem State.appendFrame_bb (f : Frame) (s : State) : (s.appendFrame f).bb = s.bb ++ [f] := rfl
@[simp] theorem State.appendFrame_inp (f : Frame) (s : State) : (s.appendFrame f).inp = s.inp := rfl
@[simp] theorem State.appendFrame_out (f : Frame) (s : State) : (s.appendFrame f).out = s.out := rfl

/-! ### `State.goTo` -/

@[simp] theorem State.goTo_session (q : FramerState) (s : State) : (s.goTo q).session = s.session := rfl
@[simp] theorem State.goTo_profile (q : FramerState) (s : State) : (s.goTo q).profile = s.profile := rfl
@[simp] theorem State.goTo_mode (q : FramerState) (s : State) : (s.goTo q).mode = s.mode := rfl
@[simp] theorem State.goTo_rate (q : FramerState) (s : State) : (s.goTo q).rate = s.rate := rfl
@[simp] theorem State.goTo_ahc (q : FramerState) (s : State) : (s.goTo q).ahc = s.ahc := rfl
@[simp] theorem State.goTo_ihc (q : FramerState) (s : State) : (s.goTo q).ihc = s.ihc := rfl
@[simp] theorem State.goTo_margin (q : FramerState) (s : State) : (s.goTo q).margin = s.margin := rfl
@[simp] theorem State.goTo_e1v (q : FramerState) (s : State) : (s.goTo q).e1v = s.e1v := rfl
@[simp] theorem State.goTo_e1 (q : FramerState) (s : State) : (s.goTo q).e1 = s.e1 := rfl
@[simp] theorem State.goTo_e2 (q : FramerState) (s : State) : (s.goTo q).e2 = s.e2 := rfl
@[simp] theorem State.goTo_pk (q : FramerState) (s : State) : (s.goTo q).pk = s.pk := rfl
@[simp] theorem State.goTo_fs (q : FramerState) (s : State) : (s.goTo q).fs = q := rfl
@[simp] theorem State.goTo_fbCnt (q : FramerState) (s : State) : (s.goTo q).fbCnt = s.fbCnt := rfl
@[simp] theorem State.goTo_fbBits (q : FramerState) (s : State) : (s.goTo q).fbBits = s.fbBits := rfl
@[simp] theorem State.goTo_fbSs (q : FramerState) (s : State) : (s.goTo q).fbSs = s.fbSs := rfl
@[simp] theorem State.goTo_fbEs (q : FramerState) (s : State) : (s.goTo q).fbEs = s.fbEs := rfl
@[simp] theorem State.goTo_bb (q : FramerState) (s : State) : (s.goTo q).bb = s.bb := rfl
@[simp] theorem State.goTo_inp (q : FramerState) (s : State) : (s.goTo q).inp = s.inp := rfl
@[simp] theorem State.goTo_out (q : FramerState) (s : State) : (s.goTo q).out = s.out := rfl

/-! ### `State.startFrame` -/

@[simp] theorem State.startFrame_session (a b : Sample) (s : State) : (s.startFrame a b).session = s.session := rfl
@[simp] theorem State.startFrame_profile (a b : Sample) (s : State) : (s.startFrame a b).profile = s.profile := rfl
@[simp] theorem State.startFrame_mode (a b : Sample) (s : State) : (s.startFrame a b).mode = s.mode := rfl
@[simp] theorem State.startFrame_rate (a b : Sample) (s : State) : (s.startFrame a b).rate = s.rate := rfl
@[simp] theorem State.startFrame_ahc (a b : Sample) (s : State) : (s.startFrame a b).ahc = s.ahc := rfl
@[simp] theorem State.startFrame_ihc (a b : Sample) (s : State) : (s.startFrame a b).ihc = s.ihc := rfl
@[simp] theorem State.startFrame_margin (a b : Sample) (s : State) : (s.startFrame a b).margin = s.margin := rfl
@[simp] theorem State.startFrame_e1v (a b : Sample) (s : State) : (s.startFrame a b).e1v = s.e1v := rfl
@[simp] theorem State.startFrame_e1 (a b : Sample) (s : State) : (s.startFrame a b).e1 = s.e1 := rfl
@[simp] theorem State.startFrame_e2 (a b : Sample) (s : State) : (s.startFrame a b).e2 = s.e2 := rfl
@[simp] theorem State.startFrame_pk (a b : Sample) (s : State) : (s.startFrame a b).pk = s.pk := rfl
@[simp] theorem State.startFrame_fs (a b : Sample) (s : State) : (s.startFrame a b).fs = .data := rfl
@[simp] theorem State.startFrame_fbCnt (a b : Sample) (s : State) : (s.startFrame a b).fbCnt = 1#4 := rfl
@[simp] theorem State.startFrame_fbBits (a b : Sample) (s : State) : (s.startFrame a b).fbBits = 0#9 := rfl
@[simp] theorem State.startFrame_fbSs (a b : Sample) (s : State) : (s.startFrame a b).fbSs = a := rfl
@[simp] theorem State.startFrame_fbEs (a b : Sample) (s : State) : (s.startFrame a b).fbEs = b := rfl
@[simp] theorem State.startFrame_bb (a b : Sample) (s : State) : (s.startFrame a b).bb = s.bb := rfl
@[simp] theorem State.startFrame_inp (a b : Sample) (s : State) : (s.startFrame a b).inp = s.inp := rfl
@[simp] theorem State.startFrame_out (a b : Sample) (s : State) : (s.startFrame a b).out = s.out ++ [.event ⟨.startBit, a, b, 0⟩] := rfl

/-! ### `State.advanceEdges` -/

@[simp] theorem State.advanceEdges_session (t : Sample) (s : State) : (s.advanceEdges t).session = s.session := rfl
@[simp] theorem State.advanceEdges_profile (t : Sample) (s : State) : (s.advanceEdges t).profile = s.profile := rfl
@[simp] theorem State.advanceEdges_mode (t : Sample) (s : State) : (s.advanceEdges t).mode = s.mode := rfl
@[simp] theorem State.advanceEdges_rate (t : Sample) (s : State) : (s.advanceEdges t).rate = s.rate := rfl
@[simp] theorem State.advanceEdges_ahc (t : Sample) (s : State) : (s.advanceEdges t).ahc = s.ahc := rfl
@[simp] theorem State.advanceEdges_ihc (t : Sample) (s : State) : (s.advanceEdges t).ihc = s.ihc := rfl
@[simp] theorem State.advanceEdges_margin (t : Sample) (s : State) : (s.advanceEdges t).margin = s.margin := rfl
@[simp] theorem State.advanceEdges_e1v (t : Sample) (s : State) : (s.advanceEdges t).e1v = s.e1v := rfl
@[simp] theorem State.advanceEdges_e1 (t : Sample) (s : State) : (s.advanceEdges t).e1 = t := rfl
@[simp] theorem State.advanceEdges_e2 (t : Sample) (s : State) : (s.advanceEdges t).e2 = s.e1 := rfl
@[simp] theorem State.advanceEdges_pk (t : Sample) (s : State) : (s.advanceEdges t).pk = s.pk := rfl
@[simp] theorem State.advanceEdges_fs (t : Sample) (s : State) : (s.advanceEdges t).fs = s.fs := rfl
@[simp] theorem State.advanceEdges_fbCnt (t : Sample) (s : State) : (s.advanceEdges t).fbCnt = s.fbCnt := rfl
@[simp] theorem State.advanceEdges_fbBits (t : Sample) (s : State) : (s.advanceEdges t).fbBits = s.fbBits := rfl
@[simp] theorem State.advanceEdges_fbSs (t : Sample) (s : State) : (s.advanceEdges t).fbSs = s.fbSs := rfl
@[simp] theorem State.advanceEdges_fbEs (t : Sample) (s : State) : (s.advanceEdges t).fbEs = s.fbEs := rfl
@[simp] theorem State.advanceEdges_bb (t : Sample) (s : State) : (s.advanceEdges t).bb = s.bb := rfl
@[simp] theorem State.advanceEdges_inp (t : Sample) (s : State) : (s.advanceEdges t).inp = s.inp := rfl
@[simp] theorem State.advanceEdges_out (t : Sample) (s : State) : (s.advanceEdges t).out = s.out := rfl

/-! ### `State.setPending` -/

@[simp] theorem State.setPending_session (k : PendingKind) (s : State) : (s.setPending k).session = s.session := rfl
@[simp] theorem State.setPending_profile (k : PendingKind) (s : State) : (s.setPending k).profile = s.profile := rfl
@[simp] theorem State.setPending_mode (k : PendingKind) (s : State) : (s.setPending k).mode = s.mode := rfl
@[simp] theorem State.setPending_rate (k : PendingKind) (s : State) : (s.setPending k).rate = s.rate := rfl
@[simp] theorem State.setPending_ahc (k : PendingKind) (s : State) : (s.setPending k).ahc = s.ahc := rfl
@[simp] theorem State.setPending_ihc (k : PendingKind) (s : State) : (s.setPending k).ihc = s.ihc := rfl
@[simp] theorem State.setPending_margin (k : PendingKind) (s : State) : (s.setPending k).margin = s.margin := rfl
@[simp] theorem State.setPending_e1v (k : PendingKind) (s : State) : (s.setPending k).e1v = s.e1v := rfl
@[simp] theorem State.setPending_e1 (k : PendingKind) (s : State) : (s.setPending k).e1 = s.e1 := rfl
@[simp] theorem State.setPending_e2 (k : PendingKind) (s : State) : (s.setPending k).e2 = s.e2 := rfl
@[simp] theorem State.setPending_pk (k : PendingKind) (s : State) : (s.setPending k).pk = k := rfl
@[simp] theorem State.setPending_fs (k : PendingKind) (s : State) : (s.setPending k).fs = s.fs := rfl
@[simp] theorem State.setPending_fbCnt (k : PendingKind) (s : State) : (s.setPending k).fbCnt = s.fbCnt := rfl
@[simp] theorem State.setPending_fbBits (k : PendingKind) (s : State) : (s.setPending k).fbBits = s.fbBits := rfl
@[simp] theorem State.setPending_fbSs (k : PendingKind) (s : State) : (s.setPending k).fbSs = s.fbSs := rfl
@[simp] theorem State.setPending_fbEs (k : PendingKind) (s : State) : (s.setPending k).fbEs = s.fbEs := rfl
@[simp] theorem State.setPending_bb (k : PendingKind) (s : State) : (s.setPending k).bb = s.bb := rfl
@[simp] theorem State.setPending_inp (k : PendingKind) (s : State) : (s.setPending k).inp = s.inp := rfl
@[simp] theorem State.setPending_out (k : PendingKind) (s : State) : (s.setPending k).out = s.out := rfl

/-! ### `framerError` -/

@[simp] theorem framerError_session (u : ErrorSubtype) (a b : Sample) (s : State) : (framerError u a b s).session = s.session := rfl
@[simp] theorem framerError_profile (u : ErrorSubtype) (a b : Sample) (s : State) : (framerError u a b s).profile = s.profile := rfl
@[simp] theorem framerError_mode (u : ErrorSubtype) (a b : Sample) (s : State) : (framerError u a b s).mode = s.mode := rfl
@[simp] theorem framerError_rate (u : ErrorSubtype) (a b : Sample) (s : State) : (framerError u a b s).rate = s.rate := rfl
@[simp] theorem framerError_ahc (u : ErrorSubtype) (a b : Sample) (s : State) : (framerError u a b s).ahc = s.ahc := rfl
@[simp] theorem framerError_ihc (u : ErrorSubtype) (a b : Sample) (s : State) : (framerError u a b s).ihc = s.ihc := rfl
@[simp] theorem framerError_margin (u : ErrorSubtype) (a b : Sample) (s : State) : (framerError u a b s).margin = s.margin := rfl
@[simp] theorem framerError_e1v (u : ErrorSubtype) (a b : Sample) (s : State) : (framerError u a b s).e1v = s.e1v := rfl
@[simp] theorem framerError_e1 (u : ErrorSubtype) (a b : Sample) (s : State) : (framerError u a b s).e1 = s.e1 := rfl
@[simp] theorem framerError_e2 (u : ErrorSubtype) (a b : Sample) (s : State) : (framerError u a b s).e2 = s.e2 := rfl
@[simp] theorem framerError_pk (u : ErrorSubtype) (a b : Sample) (s : State) : (framerError u a b s).pk = s.pk := rfl
@[simp] theorem framerError_fs (u : ErrorSubtype) (a b : Sample) (s : State) : (framerError u a b s).fs = .idle := rfl
@[simp] theorem framerError_fbCnt (u : ErrorSubtype) (a b : Sample) (s : State) : (framerError u a b s).fbCnt = 0#4 := rfl
@[simp] theorem framerError_fbBits (u : ErrorSubtype) (a b : Sample) (s : State) : (framerError u a b s).fbBits = 0#9 := rfl
@[simp] theorem framerError_fbSs (u : ErrorSubtype) (a b : Sample) (s : State) : (framerError u a b s).fbSs = 0#64 := rfl
@[simp] theorem framerError_fbEs (u : ErrorSubtype) (a b : Sample) (s : State) : (framerError u a b s).fbEs = 0#64 := rfl
@[simp] theorem framerError_bb (u : ErrorSubtype) (a b : Sample) (s : State) : (framerError u a b s).bb = [] := rfl
@[simp] theorem framerError_inp (u : ErrorSubtype) (a b : Sample) (s : State) : (framerError u a b s).inp = s.inp := rfl
@[simp] theorem framerError_out (u : ErrorSubtype) (a b : Sample) (s : State) : (framerError u a b s).out = s.out ++ [.event ⟨.decodeAbort, a, b, subtypeVal u⟩] := rfl

/-! ### `raiseConfigurationError` -/

@[simp] theorem raiseConfigurationError_session (s : State) : (raiseConfigurationError s).session = .halted := rfl
@[simp] theorem raiseConfigurationError_profile (s : State) : (raiseConfigurationError s).profile = s.profile := rfl
@[simp] theorem raiseConfigurationError_mode (s : State) : (raiseConfigurationError s).mode = s.mode := rfl
@[simp] theorem raiseConfigurationError_rate (s : State) : (raiseConfigurationError s).rate = s.rate := rfl
@[simp] theorem raiseConfigurationError_ahc (s : State) : (raiseConfigurationError s).ahc = s.ahc := rfl
@[simp] theorem raiseConfigurationError_ihc (s : State) : (raiseConfigurationError s).ihc = s.ihc := rfl
@[simp] theorem raiseConfigurationError_margin (s : State) : (raiseConfigurationError s).margin = s.margin := rfl
@[simp] theorem raiseConfigurationError_e1v (s : State) : (raiseConfigurationError s).e1v = s.e1v := rfl
@[simp] theorem raiseConfigurationError_e1 (s : State) : (raiseConfigurationError s).e1 = s.e1 := rfl
@[simp] theorem raiseConfigurationError_e2 (s : State) : (raiseConfigurationError s).e2 = s.e2 := rfl
@[simp] theorem raiseConfigurationError_pk (s : State) : (raiseConfigurationError s).pk = s.pk := rfl
@[simp] theorem raiseConfigurationError_fs (s : State) : (raiseConfigurationError s).fs = s.fs := rfl
@[simp] theorem raiseConfigurationError_fbCnt (s : State) : (raiseConfigurationError s).fbCnt = s.fbCnt := rfl
@[simp] theorem raiseConfigurationError_fbBits (s : State) : (raiseConfigurationError s).fbBits = s.fbBits := rfl
@[simp] theorem raiseConfigurationError_fbSs (s : State) : (raiseConfigurationError s).fbSs = s.fbSs := rfl
@[simp] theorem raiseConfigurationError_fbEs (s : State) : (raiseConfigurationError s).fbEs = s.fbEs := rfl
@[simp] theorem raiseConfigurationError_bb (s : State) : (raiseConfigurationError s).bb = s.bb := rfl
@[simp] theorem raiseConfigurationError_inp (s : State) : (raiseConfigurationError s).inp = s.inp := rfl
@[simp] theorem raiseConfigurationError_out (s : State) : (raiseConfigurationError s).out = s.out ++ [.response (.fault .configurationError)] := rfl

/-! ### `configure` -/

@[simp] theorem configure_session (p : Profile) (m : Mode) (r : BitVec 64) (s : State) : (configure p m r s).session = .running := rfl
@[simp] theorem configure_profile (p : Profile) (m : Mode) (r : BitVec 64) (s : State) : (configure p m r s).profile = p := rfl
@[simp] theorem configure_mode (p : Profile) (m : Mode) (r : BitVec 64) (s : State) : (configure p m r s).mode = m := rfl
@[simp] theorem configure_rate (p : Profile) (m : Mode) (r : BitVec 64) (s : State) : (configure p m r s).rate = r := rfl
@[simp] theorem configure_ahc (p : Profile) (m : Mode) (r : BitVec 64) (s : State) : (configure p m r s).ahc = threshold (tenthsActive p) r := rfl
@[simp] theorem configure_ihc (p : Profile) (m : Mode) (r : BitVec 64) (s : State) : (configure p m r s).ihc = threshold (tenthsInactive p) r := rfl
@[simp] theorem configure_margin (p : Profile) (m : Mode) (r : BitVec 64) (s : State) : (configure p m r s).margin = threshold (tenthsMargin p) r := rfl
@[simp] theorem configure_e1v (p : Profile) (m : Mode) (r : BitVec 64) (s : State) : (configure p m r s).e1v = s.e1v := rfl
@[simp] theorem configure_e1 (p : Profile) (m : Mode) (r : BitVec 64) (s : State) : (configure p m r s).e1 = s.e1 := rfl
@[simp] theorem configure_e2 (p : Profile) (m : Mode) (r : BitVec 64) (s : State) : (configure p m r s).e2 = s.e2 := rfl
@[simp] theorem configure_pk (p : Profile) (m : Mode) (r : BitVec 64) (s : State) : (configure p m r s).pk = s.pk := rfl
@[simp] theorem configure_fs (p : Profile) (m : Mode) (r : BitVec 64) (s : State) : (configure p m r s).fs = s.fs := rfl
@[simp] theorem configure_fbCnt (p : Profile) (m : Mode) (r : BitVec 64) (s : State) : (configure p m r s).fbCnt = s.fbCnt := rfl
@[simp] theorem configure_fbBits (p : Profile) (m : Mode) (r : BitVec 64) (s : State) : (configure p m r s).fbBits = s.fbBits := rfl
@[simp] theorem configure_fbSs (p : Profile) (m : Mode) (r : BitVec 64) (s : State) : (configure p m r s).fbSs = s.fbSs := rfl
@[simp] theorem configure_fbEs (p : Profile) (m : Mode) (r : BitVec 64) (s : State) : (configure p m r s).fbEs = s.fbEs := rfl
@[simp] theorem configure_bb (p : Profile) (m : Mode) (r : BitVec 64) (s : State) : (configure p m r s).bb = s.bb := rfl
@[simp] theorem configure_inp (p : Profile) (m : Mode) (r : BitVec 64) (s : State) : (configure p m r s).inp = s.inp := rfl
@[simp] theorem configure_out (p : Profile) (m : Mode) (r : BitVec 64) (s : State) : (configure p m r s).out = s.out := rfl

/-! ### `State.assertReset`: R221's table -/

@[simp] theorem State.assertReset_session (s : State) : s.assertReset.session = .unconfigured := rfl
@[simp] theorem State.assertReset_profile (s : State) : s.assertReset.profile = .blaster := rfl
@[simp] theorem State.assertReset_mode (s : State) : s.assertReset.mode = .raw := rfl
@[simp] theorem State.assertReset_rate (s : State) : s.assertReset.rate = 0#64 := rfl
@[simp] theorem State.assertReset_ahc (s : State) : s.assertReset.ahc = 0#64 := rfl
@[simp] theorem State.assertReset_ihc (s : State) : s.assertReset.ihc = 0#64 := rfl
@[simp] theorem State.assertReset_margin (s : State) : s.assertReset.margin = 0#64 := rfl
@[simp] theorem State.assertReset_e1v (s : State) : s.assertReset.e1v = false := rfl
@[simp] theorem State.assertReset_e1 (s : State) : s.assertReset.e1 = 0#64 := rfl
@[simp] theorem State.assertReset_e2 (s : State) : s.assertReset.e2 = 0#64 := rfl
@[simp] theorem State.assertReset_pk (s : State) : s.assertReset.pk = .none := rfl
@[simp] theorem State.assertReset_fs (s : State) : s.assertReset.fs = .idle := rfl
@[simp] theorem State.assertReset_fbCnt (s : State) : s.assertReset.fbCnt = 0#4 := rfl
@[simp] theorem State.assertReset_fbBits (s : State) : s.assertReset.fbBits = 0#9 := rfl
@[simp] theorem State.assertReset_fbSs (s : State) : s.assertReset.fbSs = 0#64 := rfl
@[simp] theorem State.assertReset_fbEs (s : State) : s.assertReset.fbEs = 0#64 := rfl
@[simp] theorem State.assertReset_bb (s : State) : s.assertReset.bb = [] := rfl
@[simp] theorem State.assertReset_inp (s : State) : s.assertReset.inp = s.inp := rfl
@[simp] theorem State.assertReset_out (s : State) : s.assertReset.out = s.out := rfl

end Sys2Proof.Machine
end

