-- ==== Sys2Proof/Laws/Ops.lean ====
section
/-!
SUPPORT. One lemma per shared operation that says once all it can do: the legality tests, the closing of an
item, taking an input, one step, the buffer operations, the thresholds and the count of frames.
-/

namespace Sys2Proof.Machine

/-! ## Taking the next input -/

theorem fetch_nil {s : State} (h : s.inp = []) : fetch s = none := by
  simp [fetch, h]

theorem fetch_cons {s : State} {i : Input} {rest : List Input} (h : s.inp = i :: rest) :
    fetch s = some (i, { s with inp := rest }) := by
  simp [fetch, h]

/-- All that `fetch` can answer. -/
theorem fetch_some {s t : State} {i : Input} (h : fetch s = some (i, t)) :
    ∃ rest, s.inp = i :: rest ∧ t = { s with inp := rest } := by
  unfold fetch at h
  split at h
  · cases h
  · next j rest hs =>
    cases h
    exact ⟨rest, hs, rfl⟩

/-! ## The legality tests of an item (R79) -/

theorem itemRefusal_cfg_none {s : State} : itemRefusal .cfg s = none ↔ s.session = .unconfigured := by
  unfold itemRefusal; cases s.session <;> simp

theorem itemRefusal_edge_none {s : State} : itemRefusal .edge s = none ↔ ReadyForEdges s := by
  unfold itemRefusal ReadyForEdges; cases s.session <;> cases s.mode <;> simp

theorem itemRefusal_bit_none {s : State} : itemRefusal .bit s = none ↔ ReadyForBits s := by
  unfold itemRefusal ReadyForBits; cases s.session <;> cases s.mode <;> simp

theorem itemRefusal_err_none {s : State} : itemRefusal .err s = none ↔ ReadyForBits s := by
  unfold itemRefusal ReadyForBits; cases s.session <;> cases s.mode <;> simp

/-- BIT and ERR pass the same tests. -/
theorem itemRefusal_err_eq_bit (s : State) : itemRefusal .err s = itemRefusal .bit s := by
  unfold itemRefusal; cases s.session <;> rfl

/-- In a halted session every item is turned away. -/
theorem itemRefusal_halted {s : State} (h : s.session = .halted) (k : ItemKind) :
    itemRefusal k s = some .halted := by
  simp [itemRefusal, h]

/-! ## Closing an item -/

/-- All that `complete` can answer with a next state. -/
theorem complete_next {s t : State} {r : RuleResult} (h : complete s r = .next t) :
    (∃ u, r = .next u ∧ t = u.respond .ok) ∨ (∃ q, r = .refused q ∧ t = s.respond (.refused q)) := by
  cases r <;> simp [complete] at h
  · exact .inl ⟨_, rfl, h.symm⟩
  · exact .inr ⟨_, rfl, h.symm⟩

/-- `complete` never refuses: a refusal by the core is a response. -/
theorem complete_ne_refused {s : State} {r : RuleResult} {q : Refusal} : complete s r ≠ .refused q := by
  cases r <;> simp [complete]

/-- All that an item can answer with a next state: it was turned away, or its rule answered. -/
theorem runItem_next {k : ItemKind} {rule : State → RuleResult} {s t : State}
    (h : runItem k rule s = .next t) :
    (∃ q, itemRefusal k s = some q ∧ t = s.respond (.refused q)) ∨
    (itemRefusal k s = none ∧ ∃ u, rule s = .next u ∧ t = u.respond .ok) ∨
    (itemRefusal k s = none ∧ ∃ q, rule s = .refused q ∧ t = s.respond (.refused q)) := by
  unfold runItem at h
  split at h
  · next q hq => cases h; exact .inl ⟨q, hq, rfl⟩
  · next hq =>
    rcases complete_next h with ⟨u, hu, rfl⟩ | ⟨q, hr, rfl⟩
    · exact .inr (.inl ⟨hq, u, hu, rfl⟩)
    · exact .inr (.inr ⟨hq, q, hr, rfl⟩)

theorem runItem_of_legal {k : ItemKind} {rule : State → RuleResult} {s : State}
    (h : itemRefusal k s = none) : runItem k rule s = complete s (rule s) := by
  simp [runItem, h]

/-- A row runs as the item BIT does where the framer state selects it. -/
theorem runRow_selected {row : FramerState} {rule : State → RuleResult} {s : State} (h : s.fs = row) :
    runRow row rule s = runItem .bit rule s := by
  unfold runRow runItem; simp [h]

/-- All that a row can answer with a next state. -/
theorem runRow_next {row : FramerState} {rule : State → RuleResult} {s t : State}
    (h : runRow row rule s = .next t) :
    (∃ q, itemRefusal .bit s = some q ∧ t = s.respond (.refused q)) ∨
    (ReadyForBits s ∧ s.fs = row ∧ complete s (rule s) = .next t) := by
  unfold runRow at h
  split at h
  · next q hq => cases h; exact .inl ⟨q, hq, rfl⟩
  · next hq =>
    split at h
    · next hf => exact .inr ⟨itemRefusal_bit_none.mp hq, hf, h⟩
    · cases h

/-! ## One step -/

theorem step_idle {s : State} (h : s.inp = []) : step s = .next s := by
  simp [step, fetch, h]

theorem step_reset {s : State} {rest : List Input} (h : s.inp = .reset :: rest) :
    step s = .next ({ s with inp := rest } : State).assertReset := by
  simp [step, fetch, h]

theorem step_item {s : State} {w : ItemWord} {rest : List Input} (h : s.inp = .item w :: rest) :
    step s = stepItem w { s with inp := rest } := by
  simp [step, fetch, h]

/-- All that a step can answer: it idles, it resets, or it runs one item word. -/
theorem step_cases (s : State) :
    (s.inp = [] ∧ step s = .next s) ∨
    (∃ rest, s.inp = .reset :: rest ∧ step s = .next ({ s with inp := rest } : State).assertReset) ∨
    (∃ w rest, s.inp = .item w :: rest ∧ step s = stepItem w { s with inp := rest }) := by
  cases hs : s.inp with
  | nil => exact .inl ⟨rfl, step_idle hs⟩
  | cons i rest =>
    cases i with
    | reset => exact .inr (.inl ⟨rest, rfl, step_reset hs⟩)
    | item w => exact .inr (.inr ⟨w, rest, rfl, step_item hs⟩)

/-- All that an item word can answer. -/
theorem stepItem_cases (w : ItemWord) (s : State) :
    (∃ i, decode w = .item i ∧ stepItem w s = exec i s) ∨
    (∃ e, decode w = .rejected e ∧ stepItem w s = .next (refuseWord e s)) := by
  unfold stepItem
  cases decode w with
  | item i => exact .inl ⟨i, rfl, rfl⟩
  | rejected e => exact .inr ⟨e, rfl, rfl⟩

/-- `withFetchWord` puts the word where the next step takes it. -/
theorem step_withFetchWord (s : State) (nbits w : Nat) :
    step (s.withFetchWord nbits w) = stepItem (BitVec.ofNat 136 (w % 2 ^ nbits)) s := by
  simp [step, fetch, State.withFetchWord]

/-! ## The buffer operations -/

/-- Writing one bit of the frame buffer: that bit, and no other. -/
theorem setFrameBit_getLsbD (bits : BitVec 9) (i j : Nat) (v : Bool) (hi : i < 9) :
    (setFrameBit bits i v).getLsbD j = if j = i then v else bits.getLsbD j := by
  unfold setFrameBit
  by_cases hj : j < 9
  · cases v <;> by_cases hji : j = i <;> by_cases hlt : j < i <;> simp [hj, hji, hi, hlt] <;> omega
  · have hji : j ≠ i := by omega
    rw [BitVec.getLsbD_of_ge _ _ (by omega), BitVec.getLsbD_of_ge bits _ (by omega)]
    simp [hji]

/-- A bit of the packed byte is the data bit that followed it into the buffer (R50, R145). -/
theorem packByte_getLsbD (bits : BitVec 9) (i : Nat) (hi : i < 8) :
    (packByte bits).getLsbD i = bits.getLsbD (i + 1) := by
  simp [packByte, hi, Nat.add_comm]

theorem blockFull_none (n : Nat) : blockFull none n = false := rfl

theorem blockFull_some (c n : Nat) : blockFull (some c) n = true ↔ n = c := by simp [blockFull]

/-- A finite capacity is at least 11 (D4). -/
theorem blockCap_ge {c : Nat} (h : Config.blockCap = some c) : 11 ≤ c := by
  unfold Config.blockCap at h
  cases hx : Config.blockCapExtra <;> simp [hx] at h
  omega

/-- A block of fewer than 11 frames has room at every capacity the spec allows (D4). -/
theorem blockFull_of_lt {n : Nat} (h : n < 11) : blockFull Config.blockCap n = false := by
  cases hc : Config.blockCap with
  | none => rfl
  | some c =>
    have := blockCap_ge hc
    simp [blockFull]
    omega

/-! ## The thresholds -/

/-- A threshold is its quotient: it fits the register whenever the constant is at most the denominator (R102). -/
theorem threshold_toNat (c10 : Nat) (hc : c10 ≤ usScale) (rate : BitVec 64) :
    (threshold c10 rate).toNat = rate.toNat * c10 / usScale := by
  have hr := rate.isLt
  have hle : rate.toNat * c10 / usScale ≤ rate.toNat := by
    apply Nat.div_le_of_le_mul
    rw [Nat.mul_comm]
    exact Nat.mul_le_mul_right _ hc
  simp only [threshold, BitVec.toNat_ofNat]
  exact Nat.mod_eq_of_lt (by omega)

/-! ## Counting frames -/

/-- The count over two lists of outputs: the second goes on from the first. -/
theorem framesInProgress_append (n : Nat) (a b : List Output) :
    framesInProgress n (a ++ b) = framesInProgress (framesInProgress n a) b := by
  induction a generalizing n with
  | nil => rfl
  | cons o os ih =>
    cases o with
    | response r => exact ih n
    | event e =>
      simp only [List.cons_append, framesInProgress]
      split_ifs <;> exact ih _

theorem sessionMark_idle {mark : Nat} {s : State} (h : s.inp = []) : sessionMark mark s = mark := by
  simp [sessionMark, h]

theorem sessionMark_reset {mark : Nat} {s : State} {rest : List Input} (h : s.inp = .reset :: rest) :
    sessionMark mark s = s.out.length := by
  simp [sessionMark, h]

theorem sessionMark_item {mark : Nat} {s : State} {w : ItemWord} {rest : List Input}
    (h : s.inp = .item w :: rest) : sessionMark mark s = mark := by
  simp [sessionMark, h]

end Sys2Proof.Machine
end

