-- ==== Sys2Proof/Laws/Framer.lean ====
section
/-!
SUPPORT. What the rules of BitFramer and of EdgeTimingClassifier can answer, each said once.
-/

namespace Sys2Proof.Machine

/-- The data-bit rule answers a next state exactly where `FB_CNT` is at most 8. -/
theorem ruleData_next {v : Bool} {ss es : Sample} {s t : State} (h : ruleData v ss es s = .next t) :
    s.fbCnt.toNat ≤ 8 ∧
    t = ({ s with
      fbBits := setFrameBit s.fbBits s.fbCnt.toNat v
      fbEs := es
      fbCnt := s.fbCnt + 1#4
      fs := if s.fbCnt.toNat = 8 then .frameStop else s.fs } : State).emit
        ⟨.dataBit, ss, es, bitVal v⟩ := by
  unfold ruleData at h
  split at h
  · cases h
  · next hc =>
    cases h
    exact ⟨Nat.le_of_not_lt hc, rfl⟩

/-- All that the stop-bit rule can answer. -/
theorem ruleFrameStop1_cases (cap : Option Nat) (ss es : Sample) (s : State) :
    (blockFull cap s.bb.length = true ∧ ruleFrameStop1 cap ss es s = .refused .blockFull) ∨
    (blockFull cap s.bb.length = false ∧ ruleFrameStop1 cap ss es s =
      .next (((((s.emit ⟨.stopBit, ss, es, 1⟩).emit
        ⟨.frame, s.fbSs, es, (packByte s.fbBits).toNat⟩).appendFrame
        ⟨packByte s.fbBits, s.fbSs, es⟩).clearFrame).goTo .frameStop2)) := by
  unfold ruleFrameStop1
  cases blockFull cap s.bb.length <;> simp

/-- All that the terminator rule can answer. -/
theorem ruleBlockStop1_cases (ss es : Sample) (s : State) :
    (s.bb = [] ∧ ruleBlockStop1 ss es s = .fault .emptyBlock) ∨
    (∃ f fs, s.bb = f :: fs ∧ ruleBlockStop1 ss es s =
      .next ((((s.emit ⟨.blockEnd, ss, es, 1⟩).emitAll (decodeBlock f fs f.ss es)).clearBlock).goTo .idle)) := by
  unfold ruleBlockStop1
  cases s.bb with
  | nil => exact .inl ⟨rfl, rfl⟩
  | cons f fs => exact .inr ⟨f, fs, rfl, rfl⟩

/-- What BitFramer never writes, whichever rule runs: the session, the configuration, the edge history and
the input stream (R26, R36). -/
structure FramerFrame (s t : State) : Prop where
  session : t.session = s.session
  profile : t.profile = s.profile
  mode : t.mode = s.mode
  rate : t.rate = s.rate
  ahc : t.ahc = s.ahc
  ihc : t.ihc = s.ihc
  margin : t.margin = s.margin
  e1v : t.e1v = s.e1v
  e1 : t.e1 = s.e1
  e2 : t.e2 = s.e2
  pk : t.pk = s.pk
  inp : t.inp = s.inp

theorem framerBit_frame {cap : Option Nat} {v : Bool} {ss es : Sample} {s t : State}
    (h : framerBit cap v ss es s = .next t) : FramerFrame s t := by
  unfold framerBit at h
  split at h
  · cases h; constructor <;> simp
  · cases h; constructor <;> simp
  · obtain ⟨-, rfl⟩ := ruleData_next h; constructor <;> simp
  · rcases ruleFrameStop1_cases cap ss es s with ⟨-, hr⟩ | ⟨-, hr⟩
    · rw [hr] at h; cases h
    · rw [hr] at h; cases h; constructor <;> simp
  · cases h; constructor <;> simp
  · cases h; constructor <;> simp
  · cases h; constructor <;> simp
  · rcases ruleBlockStop1_cases ss es s with ⟨-, hr⟩ | ⟨f, fs, -, hr⟩
    · rw [hr] at h; cases h
    · rw [hr] at h; cases h; constructor <;> simp
  · cases h; constructor <;> simp

theorem framerError_frame (u : ErrorSubtype) (ss es : Sample) (s : State) :
    FramerFrame s (framerError u ss es s) := by
  constructor <;> simp

/-- BitFramer only adds events to what is delivered. -/
theorem framerBit_out {cap : Option Nat} {v : Bool} {ss es : Sample} {s t : State}
    (h : framerBit cap v ss es s = .next t) : ∃ evs : List Event, t.out = s.out ++ evs.map .event := by
  unfold framerBit at h
  split at h
  · cases h; exact ⟨[⟨.startBit, ss, es, 0⟩], rfl⟩
  · cases h; exact ⟨[], by simp⟩
  · obtain ⟨-, rfl⟩ := ruleData_next h; exact ⟨[⟨.dataBit, ss, es, _⟩], rfl⟩
  · rcases ruleFrameStop1_cases cap ss es s with ⟨-, hr⟩ | ⟨-, hr⟩
    · rw [hr] at h; cases h
    · rw [hr] at h; cases h
      exact ⟨[⟨.stopBit, ss, es, 1⟩, ⟨.frame, s.fbSs, es, (packByte s.fbBits).toNat⟩], by simp⟩
  · cases h; exact ⟨framingEvents s.fbSs s.fbEs s.bb, by simp⟩
  · cases h; exact ⟨[⟨.spacerBit, ss, es, 1⟩], rfl⟩
  · cases h; exact ⟨[⟨.startBit, ss, es, 0⟩], rfl⟩
  · rcases ruleBlockStop1_cases ss es s with ⟨-, hr⟩ | ⟨f, fs, -, hr⟩
    · rw [hr] at h; cases h
    · rw [hr] at h; cases h
      exact ⟨⟨.blockEnd, ss, es, 1⟩ :: decodeBlock f fs f.ss es, by simp⟩
  · cases h; exact ⟨[⟨.startBit, ss, es, 0⟩], rfl⟩

/-- BitFramer refuses a Bit for one reason only (R163). -/
theorem framerBit_refused {cap : Option Nat} {v : Bool} {ss es : Sample} {s : State} {q : RefuseReason}
    (h : framerBit cap v ss es s = .refused q) :
    q = .blockFull ∧ s.fs = .frameStop ∧ v = true ∧ blockFull cap s.bb.length = true := by
  unfold framerBit at h
  split at h
  · cases h
  · cases h
  · unfold ruleData at h; split at h <;> cases h
  · next _ _ hf =>
    rcases ruleFrameStop1_cases cap ss es s with ⟨hb, hr⟩ | ⟨-, hr⟩
    · rw [hr] at h; cases h; exact ⟨rfl, hf, rfl, hb⟩
    · rw [hr] at h; cases h
  · cases h
  · cases h
  · cases h
  · rcases ruleBlockStop1_cases ss es s with ⟨-, hr⟩ | ⟨f, fs, -, hr⟩ <;> rw [hr] at h <;> cases h
  · cases h

/-- All that the rule of EDGE can be: one of the four cases of R121, which exclude one another (R126). -/
theorem observeEdge_cases (cap : Option Nat) (t : Sample) (s : State) :
    (s.e1v = false ∧ observeEdge cap t s = firstEdge t s) ∨
    (s.e1v = true ∧ edgeKind t s = .error ∧ observeEdge cap t s = errorHalfCycle t s) ∨
    (s.e1v = true ∧ edgeKind t s = .active ∧ s.pk = .active ∧
      observeEdge cap t s = pairComplete cap false t s) ∨
    (s.e1v = true ∧ edgeKind t s = .inactive ∧ s.pk = .inactive ∧
      observeEdge cap t s = pairComplete cap true t s) ∨
    (s.e1v = true ∧ edgeKind t s = .active ∧ s.pk ≠ .active ∧
      observeEdge cap t s = leavePending .active t s) ∨
    (s.e1v = true ∧ edgeKind t s = .inactive ∧ s.pk ≠ .inactive ∧
      observeEdge cap t s = leavePending .inactive t s) := by
  unfold observeEdge
  cases he : s.e1v
  · simp
  · cases hk : edgeKind t s
    · by_cases hp : s.pk = .active <;> simp [hp]
    · by_cases hp : s.pk = .inactive <;> simp [hp]
    · simp

end Sys2Proof.Machine
end

