-- ==== Sys2Proof/Laws/Exec.lean ====
section
/-!
SUPPORT. What an instruction can answer, said once for all fifteen: every claim about a next state starts from
`exec_next`, and every claim about a transition of BitFramer from `framerBit_next`.
-/

namespace Sys2Proof.Machine

/-! ## What is delivered -/

/-- One item's delivery determines its events and its response. -/
theorem delivery_inj {o : List Output} {es es' : List Event} {r r' : Response}
    (h : o ++ delivery es r = o ++ delivery es' r') : es = es' ∧ r = r' := by
  have h1 : es.map Output.event ++ [Output.response r] = es'.map Output.event ++ [Output.response r'] :=
    List.append_cancel_left h
  obtain ⟨h2, h3⟩ := List.append_inj' h1 rfl
  have hi : Function.Injective Output.event := fun _ _ h => Output.event.inj h
  exact ⟨(List.map_injective_iff.mpr hi) h2, by simpa using h3⟩

/-- Events appended and then the response: one delivery. -/
theorem respond_out {s u : State} {evs : List Event} {r : Response}
    (h : u.out = s.out ++ evs.map .event) : (u.respond r).out = s.out ++ delivery evs r := by
  simp [h, delivery]

theorem respond_out_nil (s : State) (r : Response) : (s.respond r).out = s.out ++ delivery [] r := by
  simp [delivery]

/-! ## Well-formed terms and decoding -/

theorem wellFormed_iff {i : Instr} : i.wellFormed = true ↔ i.item = i := by simp [Instr.wellFormed]

/-- The decoder gives items only. -/
theorem decode_wellFormed {w : ItemWord} {i : Instr} (h : decode w = .item i) : i.wellFormed = true := by
  unfold decode ifReservedZero at h
  split_ifs at h <;> cases h <;> simp [Instr.wellFormed, Instr.item]

/-! ## BitFramer -/

/-- All that BitFramer can answer to a Bit with a next state: the nine rules of R140. -/
theorem framerBit_next {cap : Option Nat} {v : Bool} {ss es : Sample} {s t : State}
    (h : framerBit cap v ss es s = .next t) :
    ((s.fs = .idle ∨ s.fs = .frameStop2 ∨ s.fs = .blockStop) ∧ v = false ∧ t = s.startFrame ss es) ∨
    (s.fs = .idle ∧ v = true ∧ t = s) ∨
    (s.fs = .data ∧ s.fbCnt.toNat ≤ 8 ∧ t = ({ s with
      fbBits := setFrameBit s.fbBits s.fbCnt.toNat v
      fbEs := es
      fbCnt := s.fbCnt + 1#4
      fs := if s.fbCnt.toNat = 8 then .frameStop else s.fs } : State).emit
        ⟨.dataBit, ss, es, bitVal v⟩) ∨
    (s.fs = .frameStop ∧ v = true ∧ blockFull cap s.bb.length = false ∧
      t = ((((s.emit ⟨.stopBit, ss, es, 1⟩).emit
        ⟨.frame, s.fbSs, es, (packByte s.fbBits).toNat⟩).appendFrame
        ⟨packByte s.fbBits, s.fbSs, es⟩).clearFrame).goTo .frameStop2) ∨
    (s.fs = .frameStop ∧ v = false ∧
      t = (((s.emitAll (framingEvents s.fbSs s.fbEs s.bb)).clearBlock).clearFrame).goTo .idle) ∨
    (s.fs = .frameStop2 ∧ v = true ∧ t = (s.emit ⟨.spacerBit, ss, es, 1⟩).goTo .blockStop) ∨
    (s.fs = .blockStop ∧ v = true ∧ ∃ f fs, s.bb = f :: fs ∧
      t = (((s.emit ⟨.blockEnd, ss, es, 1⟩).emitAll (decodeBlock f fs f.ss es)).clearBlock).goTo .idle) := by
  unfold framerBit at h
  split at h
  · next hf => cases h; exact .inl ⟨.inl hf, rfl, rfl⟩
  · next hf => cases h; exact .inr (.inl ⟨hf, rfl, rfl⟩)
  · next hf =>
    obtain ⟨hc, ht⟩ := ruleData_next h
    exact .inr (.inr (.inl ⟨hf, hc, ht⟩))
  · next hf =>
    rcases ruleFrameStop1_cases cap ss es s with ⟨-, hr⟩ | ⟨hb, hr⟩
    · rw [hr] at h; cases h
    · rw [hr] at h; cases h
      exact .inr (.inr (.inr (.inl ⟨hf, rfl, hb, rfl⟩)))
  · next hf => cases h; exact .inr (.inr (.inr (.inr (.inl ⟨hf, rfl, rfl⟩))))
  · next hf => cases h; exact .inr (.inr (.inr (.inr (.inr (.inl ⟨hf, rfl, rfl⟩)))))
  · next hf => cases h; exact .inl ⟨.inr (.inl hf), rfl, rfl⟩
  · next hf =>
    rcases ruleBlockStop1_cases ss es s with ⟨-, hr⟩ | ⟨f, fs, hb, hr⟩
    · rw [hr] at h; cases h
    · rw [hr] at h; cases h
      exact .inr (.inr (.inr (.inr (.inr (.inr ⟨hf, rfl, f, fs, hb, rfl⟩)))))
  · next hf => cases h; exact .inl ⟨.inr (.inr hf), rfl, rfl⟩

/-! ## Every instruction -/

/-- Where the framer state selects a row, the row answers as BitFramer's dispatch does. -/
theorem runRow_next_framer {row : FramerState} {rule : State → RuleResult} {v : Bool} {ss es : Sample}
    {s t : State} (hrule : s.fs = row → rule s = framerBit Config.blockCap v ss es s)
    (h : runRow row rule s = .next t) :
    (∃ q, t = s.respond (.refused q)) ∨
    (ReadyForBits s ∧ ∃ u, framerBit Config.blockCap v ss es s = .next u ∧ t = u.respond .ok) := by
  rcases runRow_next h with ⟨q, -, rfl⟩ | ⟨hr, hf, hc⟩
  · exact .inl ⟨q, rfl⟩
  · rw [hrule hf] at hc
    rcases complete_next hc with ⟨u, hu, rfl⟩ | ⟨q, -, rfl⟩
    · exact .inr ⟨hr, u, hu, rfl⟩
    · exact .inl ⟨q, rfl⟩

/-- All that `exec` can answer with a next state: the item is refused by the core, or CFG raises
ConfigurationError or configures, or the rule of EDGE, of BIT (or of the row selected) or of ERR runs. -/
theorem exec_next {i : Instr} {s t : State} (h : exec i s = .next t) :
    (∃ q, t = s.respond (.refused q)) ∨
    (∃ p m r, i = .cfg p m r ∧ s.session = .unconfigured ∧ r.toNat < minRate ∧
      t = raiseConfigurationError s) ∨
    (∃ p m r, i = .cfg p m r ∧ s.session = .unconfigured ∧ minRate ≤ r.toNat ∧
      t = (configure p m r s).respond .ok) ∨
    (∃ x, i = .edge x ∧ ReadyForEdges s ∧
      ∃ u, observeEdge Config.blockCap x s = .next u ∧ t = u.respond .ok) ∨
    (∃ v ss es, i.item = .bit v ss es ∧ ReadyForBits s ∧
      ∃ u, framerBit Config.blockCap v ss es s = .next u ∧ t = u.respond .ok) ∨
    (∃ e ss es, i.item = .err e ss es ∧ ReadyForBits s ∧ t = (framerError e ss es s).respond .ok) := by
  have row : ∀ {row : FramerState} {rule : State → RuleResult} (v : Bool) (ss es : Sample),
      i.item = .bit v ss es → (s.fs = row → rule s = framerBit Config.blockCap v ss es s) →
      runRow row rule s = .next t →
      (∃ q, t = s.respond (.refused q)) ∨
      (∃ v ss es, i.item = .bit v ss es ∧ ReadyForBits s ∧
        ∃ u, framerBit Config.blockCap v ss es s = .next u ∧ t = u.respond .ok) := by
    intro row rule v ss es hi hrule hrun
    rcases runRow_next_framer hrule hrun with hq | ⟨hr, hu⟩
    · exact .inl hq
    · exact .inr ⟨v, ss, es, hi, hr, hu⟩
  have err : ∀ {e ss es}, i.item = .err e ss es →
      runItem .err (fun t => .next (framerError e ss es t)) s = .next t →
      (∃ q, t = s.respond (.refused q)) ∨
      (∃ e ss es, i.item = .err e ss es ∧ ReadyForBits s ∧ t = (framerError e ss es s).respond .ok) := by
    intro e ss es hi hrun
    rcases runItem_next hrun with ⟨q, -, rfl⟩ | ⟨hl, u, hu, rfl⟩ | ⟨-, q, hu, -⟩
    · exact .inl ⟨q, rfl⟩
    · cases hu
      exact .inr ⟨e, ss, es, hi, itemRefusal_err_none.mp hl, rfl⟩
    · cases hu
  cases i with
  | cfg p m r =>
    change execCfg p m r s = .next t at h
    unfold execCfg at h
    split at h
    · next q _ => cases h; exact .inl ⟨q, rfl⟩
    · next hl =>
      have hu := itemRefusal_cfg_none.mp hl
      split at h
      · next hr => cases h; exact .inr (.inl ⟨p, m, r, rfl, hu, hr, rfl⟩)
      · next hr => cases h; exact .inr (.inr (.inl ⟨p, m, r, rfl, hu, Nat.le_of_not_lt hr, rfl⟩))
  | edge x =>
    rcases runItem_next (k := .edge) h with ⟨q, -, rfl⟩ | ⟨hl, u, hu, rfl⟩ | ⟨-, q, -, rfl⟩
    · exact .inl ⟨q, rfl⟩
    · exact .inr (.inr (.inr (.inl ⟨x, rfl, itemRefusal_edge_none.mp hl, u, hu, rfl⟩)))
    · exact .inl ⟨q, rfl⟩
  | bit v ss es =>
    rcases runItem_next (k := .bit) h with ⟨q, -, rfl⟩ | ⟨hl, u, hu, rfl⟩ | ⟨-, q, -, rfl⟩
    · exact .inl ⟨q, rfl⟩
    · exact .inr (.inr (.inr (.inr (.inl ⟨v, ss, es, rfl, itemRefusal_bit_none.mp hl, u, hu, rfl⟩))))
    · exact .inl ⟨q, rfl⟩
  | err e ss es => exact (err rfl h).imp_right fun hb => .inr (.inr (.inr (.inr hb)))
  | bit0Idle ss es =>
    exact (row false ss es rfl (fun hf => by simp [framerBit, hf]) h).imp_right
      fun hb => .inr (.inr (.inr (.inl hb)))
  | bit1Idle ss es =>
    exact (row true ss es rfl (fun hf => by simp [framerBit, hf]) h).imp_right
      fun hb => .inr (.inr (.inr (.inl hb)))
  | bit0Data ss es =>
    exact (row false ss es rfl (fun hf => by simp [framerBit, hf]) h).imp_right
      fun hb => .inr (.inr (.inr (.inl hb)))
  | bit1Data ss es =>
    exact (row true ss es rfl (fun hf => by simp [framerBit, hf]) h).imp_right
      fun hb => .inr (.inr (.inr (.inl hb)))
  | bit1FrameStop ss es =>
    exact (row true ss es rfl (fun hf => by simp [framerBit, hf]) h).imp_right
      fun hb => .inr (.inr (.inr (.inl hb)))
  | bit0FrameStop ss es =>
    exact (row false ss es rfl (fun hf => by simp [framerBit, hf]) h).imp_right
      fun hb => .inr (.inr (.inr (.inl hb)))
  | bit1FrameStop2 ss es =>
    exact (row true ss es rfl (fun hf => by simp [framerBit, hf]) h).imp_right
      fun hb => .inr (.inr (.inr (.inl hb)))
  | bit0FrameStop2 ss es =>
    exact (row false ss es rfl (fun hf => by simp [framerBit, hf]) h).imp_right
      fun hb => .inr (.inr (.inr (.inl hb)))
  | bit1BlockStop ss es =>
    exact (row true ss es rfl (fun hf => by simp [framerBit, hf]) h).imp_right
      fun hb => .inr (.inr (.inr (.inl hb)))
  | bit0BlockStop ss es =>
    exact (row false ss es rfl (fun hf => by simp [framerBit, hf]) h).imp_right
      fun hb => .inr (.inr (.inr (.inl hb)))
  | errAny e ss es => exact (err rfl h).imp_right fun hb => .inr (.inr (.inr (.inr hb)))

/-! ## EDGE -/

/-- EDGE only adds events to what is delivered. -/
theorem observeEdge_out {cap : Option Nat} {t : Sample} {s u : State}
    (h : observeEdge cap t s = .next u) : ∃ evs : List Event, u.out = s.out ++ evs.map .event := by
  have pair : ∀ v, pairComplete cap v t s = .next u →
      ∃ evs : List Event, u.out = s.out ++ evs.map .event := by
    intro v hp
    obtain ⟨evs, he⟩ := framerBit_out hp
    exact ⟨⟨.rawBit, s.e2, t, bitVal v⟩ :: evs, by simp [he]⟩
  rcases observeEdge_cases cap t s with
    ⟨-, hx⟩ | ⟨-, -, hx⟩ | ⟨-, -, -, hx⟩ | ⟨-, -, -, hx⟩ | ⟨-, -, -, hx⟩ | ⟨-, -, -, hx⟩ <;> rw [hx] at h
  · cases h; exact ⟨[], by simp⟩
  · cases h; exact ⟨[⟨.decodeAbort, s.e1, t, 1⟩], by simp [subtypeVal]⟩
  · exact pair false h
  · exact pair true h
  · cases h; exact ⟨[], by simp⟩
  · cases h; exact ⟨[], by simp⟩

/-- What EDGE never writes, and what it makes of the edge history (R26, R129). -/
theorem observeEdge_frame {cap : Option Nat} {t : Sample} {s u : State}
    (h : observeEdge cap t s = .next u) :
    u.session = s.session ∧ u.profile = s.profile ∧ u.mode = s.mode ∧ u.rate = s.rate ∧ u.ahc = s.ahc ∧
    u.ihc = s.ihc ∧ u.margin = s.margin ∧ u.inp = s.inp ∧ u.e1v = true ∧ u.e1 = t ∧
    u.e2 = if s.e1v = true then s.e1 else s.e2 := by
  rcases observeEdge_cases cap t s with
    ⟨he, hx⟩ | ⟨he, -, hx⟩ | ⟨he, -, -, hx⟩ | ⟨he, -, -, hx⟩ | ⟨he, -, -, hx⟩ | ⟨he, -, -, hx⟩ <;>
    rw [hx] at h
  · cases h; simp [he]
  · cases h; simp [he]
  · have hf := framerBit_frame h
    simp [hf.session, hf.profile, hf.mode, hf.rate, hf.ahc, hf.ihc, hf.margin, hf.inp, hf.e1v, hf.e1, hf.e2, he]
  · have hf := framerBit_frame h
    simp [hf.session, hf.profile, hf.mode, hf.rate, hf.ahc, hf.ihc, hf.margin, hf.inp, hf.e1v, hf.e1, hf.e2, he]
  · cases h; simp [he]
  · cases h; simp [he]

/-- BitFramer reads neither the mode nor the classifier's registers, and adds to whatever is delivered: the same Bit
does the same to a state that differs in those alone (R26, R128). -/
theorem framerBit_rebase {cap : Option Nat} {v : Bool} {ss es : Sample} {s u : State} {evs : List Event}
    (m : Mode) (k : PendingKind) (a b : Sample) (o : List Output)
    (h : framerBit cap v ss es s = .next u) (ho : u.out = s.out ++ evs.map .event) :
    framerBit cap v ss es { s with mode := m, pk := k, e2 := a, e1 := b, out := o } =
      .next { u with mode := m, pk := k, e2 := a, e1 := b, out := o ++ evs.map .event } := by
  have inj : ∀ {w : State} {l : List Event}, w.out ++ l.map Output.event = w.out ++ evs.map .event → l = evs :=
    fun h => (List.map_injective_iff.mpr fun _ _ h => Output.event.inj h) (List.append_cancel_left h)
  rcases framerBit_next h with
    ⟨hf, rfl, rfl⟩ | ⟨hf, rfl, hu⟩ | ⟨hf, hc, rfl⟩ | ⟨hf, rfl, hb, rfl⟩ | ⟨hf, rfl, rfl⟩ | ⟨hf, rfl, rfl⟩ |
    ⟨hf, rfl, f, fs, hb, rfl⟩
  · have : [⟨.startBit, ss, es, 0⟩] = evs := inj (w := s) (by simpa using ho)
    subst this
    rcases hf with hf | hf | hf <;>
      simp [framerBit, hf, ruleIdle0, ruleFrameStop20, ruleBlockStop0, State.startFrame, State.emit]
  · subst hu
    have : [] = evs := inj (w := u) (by simpa using ho)
    subst this
    simp [framerBit, hf, ruleIdle1]
  · have : [⟨.dataBit, ss, es, bitVal v⟩] = evs := inj (w := s) (by simpa using ho)
    subst this
    simp [framerBit, hf, ruleData, State.emit, dataBits, hc]
  · have : [_, _] = evs := inj (w := s) (by simpa using ho)
    subst this
    simp [framerBit, hf, ruleFrameStop1, hb, State.emit, State.goTo, State.clearFrame, State.appendFrame]
  · have : framingEvents s.fbSs s.fbEs s.bb = evs := inj (w := s) (by simpa using ho)
    subst this
    simp [framerBit, hf, ruleFrameStop0, State.emitAll, State.goTo, State.clearFrame, State.clearBlock]
  · have : [_] = evs := inj (w := s) (by simpa using ho)
    subst this
    simp [framerBit, hf, ruleFrameStop21, State.emit, State.goTo]
  · have : ⟨.blockEnd, ss, es, 1⟩ :: decodeBlock f fs f.ss es = evs := inj (w := s) (by simpa using ho)
    subst this
    simp [framerBit, hf, ruleBlockStop1, hb, State.emit, State.emitAll, State.goTo, State.clearBlock]

/-! ## One item -/

/-- Every instruction that answers a next state leaves the input stream and adds one delivery to the output. -/
theorem exec_out {i : Instr} {s t : State} (h : exec i s = .next t) :
    t.inp = s.inp ∧ ∃ (evs : List Event) (r : Response), t.out = s.out ++ delivery evs r := by
  rcases exec_next h with ⟨q, rfl⟩ | ⟨p, m, r, -, -, -, rfl⟩ | ⟨p, m, r, -, -, -, rfl⟩ | ⟨x, -, -, w, hw, rfl⟩ |
    ⟨v, ss, es, -, -, w, hw, rfl⟩ | ⟨e, ss, es, -, -, rfl⟩
  · exact ⟨rfl, [], _, respond_out_nil s _⟩
  · exact ⟨rfl, [], .fault .configurationError, by simp [delivery]⟩
  · exact ⟨rfl, [], .ok, by simp [delivery]⟩
  · obtain ⟨evs, he⟩ := observeEdge_out hw
    exact ⟨(observeEdge_frame hw).2.2.2.2.2.2.2.1, evs, _, respond_out he⟩
  · obtain ⟨evs, he⟩ := framerBit_out hw
    exact ⟨(framerBit_frame hw).inp, evs, _, respond_out he⟩
  · exact ⟨rfl, [⟨.decodeAbort, ss, es, subtypeVal e⟩], .ok, by simp [delivery]⟩

/-- All that a step on an item word can answer with a next state. -/
theorem step_item_next {s t : State} {w : ItemWord} {rest : List Input} (hi : s.inp = .item w :: rest)
    (h : step s = .next t) :
    (∃ i, decode w = .item i ∧ exec i { s with inp := rest } = .next t) ∨
    (∃ e, decode w = .rejected e ∧ t = refuseWord e { s with inp := rest }) := by
  rw [step_item hi] at h
  rcases stepItem_cases w { s with inp := rest } with ⟨i, hd, hx⟩ | ⟨e, hd, hx⟩
  · exact .inl ⟨i, hd, by rw [← hx]; exact h⟩
  · rw [hx] at h; cases h; exact .inr ⟨e, hd, rfl⟩

end Sys2Proof.Machine
end

