-- ==== Sys2Proof/Laws/PerInstr.lean ====
section
/-!
SUPPORT. A statement about every instruction as syntax, one lemma per constructor: the opcode field of its
word is the one the opcode map gives (R83), and the item it is a case of is well formed.
-/

namespace Sys2Proof

/-- The opcode of an item or of a row (R83's table). -/
def Instr.opcode : Instr → BitVec 4
  | .cfg _ _ _ => 1#4
  | .edge _ => 2#4
  | .bit _ _ _ => 3#4
  | .err _ _ _ => 4#4
  | .bit0Idle _ _ => 3#4
  | .bit1Idle _ _ => 3#4
  | .bit0Data _ _ => 3#4
  | .bit1Data _ _ => 3#4
  | .bit1FrameStop _ _ => 3#4
  | .bit0FrameStop _ _ => 3#4
  | .bit1FrameStop2 _ _ => 3#4
  | .bit0FrameStop2 _ _ => 3#4
  | .bit1BlockStop _ _ => 3#4
  | .bit0BlockStop _ _ => 3#4
  | .errAny _ _ _ => 4#4

namespace Laws.OpcodeField

/-- The word of `i` carries the opcode that R83 gives, and its item is well formed. -/
def Statement (i : Instr) : Prop := itemOp (encode i) = i.opcode ∧ i.item.wellFormed = true

theorem cfg (p : Profile) (m : Mode) (r : BitVec 64) : Statement (.cfg p m r) := ⟨itemOp_itemWord .., by simp [Instr.wellFormed, Instr.item]⟩
theorem edge (t : Sample) : Statement (.edge t) := ⟨itemOp_itemWord .., by simp [Instr.wellFormed, Instr.item]⟩
theorem bit (v : Bool) (ss es : Sample) : Statement (.bit v ss es) := ⟨itemOp_itemWord .., by simp [Instr.wellFormed, Instr.item]⟩
theorem err (u : ErrorSubtype) (ss es : Sample) : Statement (.err u ss es) := ⟨itemOp_itemWord .., by simp [Instr.wellFormed, Instr.item]⟩
theorem bit0Idle (ss es : Sample) : Statement (.bit0Idle ss es) := ⟨itemOp_itemWord .., by simp [Instr.wellFormed, Instr.item]⟩
theorem bit1Idle (ss es : Sample) : Statement (.bit1Idle ss es) := ⟨itemOp_itemWord .., by simp [Instr.wellFormed, Instr.item]⟩
theorem bit0Data (ss es : Sample) : Statement (.bit0Data ss es) := ⟨itemOp_itemWord .., by simp [Instr.wellFormed, Instr.item]⟩
theorem bit1Data (ss es : Sample) : Statement (.bit1Data ss es) := ⟨itemOp_itemWord .., by simp [Instr.wellFormed, Instr.item]⟩
theorem bit1FrameStop (ss es : Sample) : Statement (.bit1FrameStop ss es) := ⟨itemOp_itemWord .., by simp [Instr.wellFormed, Instr.item]⟩
theorem bit0FrameStop (ss es : Sample) : Statement (.bit0FrameStop ss es) := ⟨itemOp_itemWord .., by simp [Instr.wellFormed, Instr.item]⟩
theorem bit1FrameStop2 (ss es : Sample) : Statement (.bit1FrameStop2 ss es) := ⟨itemOp_itemWord .., by simp [Instr.wellFormed, Instr.item]⟩
theorem bit0FrameStop2 (ss es : Sample) : Statement (.bit0FrameStop2 ss es) := ⟨itemOp_itemWord .., by simp [Instr.wellFormed, Instr.item]⟩
theorem bit1BlockStop (ss es : Sample) : Statement (.bit1BlockStop ss es) := ⟨itemOp_itemWord .., by simp [Instr.wellFormed, Instr.item]⟩
theorem bit0BlockStop (ss es : Sample) : Statement (.bit0BlockStop ss es) := ⟨itemOp_itemWord .., by simp [Instr.wellFormed, Instr.item]⟩
theorem errAny (u : ErrorSubtype) (ss es : Sample) : Statement (.errAny u ss es) := ⟨itemOp_itemWord .., by simp [Instr.wellFormed, Instr.item]⟩

end Laws.OpcodeField

end Sys2Proof
end

