-- ==== Sys2Proof/Tests/Slice0.lean ====
section
/-!
SUPPORT. Tests of one step or one operation each, the expected values from `spec/95_test_vectors.md` (the vector or
the program named at each test), and the witnesses: for each statement of `Obligations.lean` that has hypotheses, a
concrete state and operands that meet them.
-/

open Sys2Proof Sys2Proof.Machine

namespace Sys2Proof.Tests

/-! ## The states of the tests -/

/-- After `cfg blaster pre 1000000` (V1: thresholds 125, 250, 62). -/
def pre : State :=
  { State.reset with session := .running, mode := .pre, rate := 1000000#64, ahc := 125#64, ihc := 250#64,
                     margin := 62#64 }

/-- After `cfg blaster raw 1000000`. -/
def raw : State := { pre with mode := .raw }

/-- Halted by a ConfigurationError. -/
def halted : State := { State.reset with session := .halted }

/-- `pre` with the framer in `q` and `FB_CNT` and the block buffer as given. -/
def framer (q : FramerState) (cnt : BitVec 4) (bb : List Frame) : State := { pre with fs := q, fbCnt := cnt, bb := bb }

/-- The frame `0x02` with the span `[0, 100]` of V6. -/
def frame02 : Frame := ⟨0x02#8, 0#64, 100#64⟩

/-- `raw` with the edge history and the pending half-cycle as given. -/
def edges (e2 e1 : Sample) (pk : PendingKind) : State := { raw with e1v := true, e1 := e1, e2 := e2, pk := pk }

/-- `s` with the words as its next inputs. -/
def withWords (s : State) (ws : List ItemWord) : State := { s with inp := ws.map .item }

/-- The next state of an answer. -/
def next? (o : Host.Outcome State Fault Refusal) : Option State :=
  match o with
  | .next s => some s
  | .fault _ => none
  | .refused _ => none

/-- The events and the response of one item run on a state that has delivered nothing. -/
def told (o : Host.Outcome State Fault Refusal) : Option (List Event × List Response) :=
  (next? o).map fun s => (s.events, s.responses)

/-! ## Well-formed terms: the one check refuses each transition row (R83) -/

theorem test_wellFormed_items :
    ([.cfg .blaster .raw 0#64, .edge 0#64, .bit false 0#64 0#64, .bit true 0#64 0#64, .err .phase 0#64 0#64,
      .err .invalid 0#64 0#64] : List Instr).map Instr.wellFormed = List.replicate 6 true := by decide

theorem test_wellFormed_refuses_rows :
    ([.bit0Idle 0#64 0#64, .bit1Idle 0#64 0#64, .bit0Data 0#64 0#64, .bit1Data 0#64 0#64, .bit1FrameStop 0#64 0#64,
      .bit0FrameStop 0#64 0#64, .bit1FrameStop2 0#64 0#64, .bit0FrameStop2 0#64 0#64, .bit1BlockStop 0#64 0#64,
      .bit0BlockStop 0#64 0#64, .errAny .phase 0#64 0#64] : List Instr).map Instr.wellFormed
      = List.replicate 11 false := by decide

/-! ## Decoding: words written out from R71 to R75, `op ++ arg ++ a ++ b` -/

/-- R72: `op` 0001, `arg` 00mp = 0011 (`pre`, `smartdevice`), `a` = 48000 (P3's first word). -/
theorem test_decode_cfg :
    decode (0b0001#4 ++ 0b0011#4 ++ 0xBB80#64 ++ 0#64) = .item (.cfg .smartdevice .pre 48000#64) ∧
    decode 0x13000000000000BB800000000000000000#136 = .item (.cfg .smartdevice .pre 48000#64) := by decide

/-- R72: `arg` = 0010 is `pre` and `blaster`, `arg` = 0001 is `raw` and `smartdevice` (P2, P9). -/
theorem test_decode_cfg_fields :
    decode (0b0001#4 ++ 0b0010#4 ++ 0xF4240#64 ++ 0#64) = .item (.cfg .blaster .pre 1000000#64) ∧
    decode (0b0001#4 ++ 0b0001#4 ++ 0x3E80#64 ++ 0#64) = .item (.cfg .smartdevice .raw 16000#64) := by decide

/-- R73: `op` 0010, `arg` 0000, `a` = 1125 (P1, step 4). -/
theorem test_decode_edge :
    decode (0b0010#4 ++ 0b0000#4 ++ 0x465#64 ++ 0#64) = .item (.edge 1125#64) := by decide

/-- R74: `op` 0011, `arg` 000v, `a` = 600, `b` = 850 (P2, step 5, and with v = 0). -/
theorem test_decode_bit :
    decode (0b0011#4 ++ 0b0001#4 ++ 0x258#64 ++ 0x352#64) = .item (.bit true 600#64 850#64) ∧
    decode (0b0011#4 ++ 0b0000#4 ++ 0x258#64 ++ 0x352#64) = .item (.bit false 600#64 850#64) := by decide

/-- R75: `op` 0100, `arg` 000u (P5's two Errors). -/
theorem test_decode_err :
    decode (0b0100#4 ++ 0b0000#4 ++ 0x19C8#64 ++ 0x1A2C#64) = .item (.err .phase 6600#64 6700#64) ∧
    decode (0b0100#4 ++ 0b0001#4 ++ 0x1B26#64 ++ 0x1B58#64) = .item (.err .invalid 6950#64 7000#64) := by decide

/-- The opcode table's `match` of the rows with v = 0 is 0x30...: their word is that of the item BIT 0 (R83). -/
theorem test_decode_rows_of_bit0 :
    decodeTableWord 136 0x3000000000000002580000000000000352 = some (.bit false 600#64 850#64) ∧
    ([.bit0Idle 600#64 850#64, .bit0Data 600#64 850#64, .bit0FrameStop 600#64 850#64, .bit0FrameStop2 600#64 850#64,
      .bit0BlockStop 600#64 850#64] : List Instr).map (fun i => (encode i, i.item))
      = List.replicate 5 (0x3000000000000002580000000000000352#136, .bit false 600#64 850#64) := by decide

/-- The `match` of the rows with v = 1 is 0x31... -/
theorem test_decode_rows_of_bit1 :
    decodeTableWord 136 0x3100000000000002580000000000000352 = some (.bit true 600#64 850#64) ∧
    ([.bit1Idle 600#64 850#64, .bit1Data 600#64 850#64, .bit1FrameStop 600#64 850#64, .bit1FrameStop2 600#64 850#64,
      .bit1BlockStop 600#64 850#64] : List Instr).map (fun i => (encode i, i.item))
      = List.replicate 5 (0x3100000000000002580000000000000352#136, .bit true 600#64 850#64) := by decide

/-- The `match` of ERR.any is that of ERR. -/
theorem test_decode_row_of_err :
    decodeTableWord 136 0x410000000000001B260000000000001B58 = some (.err .invalid 6950#64 7000#64) ∧
    encode (.errAny .invalid 6950#64 7000#64) = 0x410000000000001B260000000000001B58#136 ∧
    (Instr.errAny .invalid 6950#64 7000#64).item = .err .invalid 6950#64 7000#64 := by decide

/-- V9: the reserved encodings, each with one bit of one reserved field set. -/
theorem test_decode_rejects :
    decode 0x0000000000000000000000000000000000#136 = .rejected .reservedOpcode ∧
    decode 0x5000000000000000000000000000000000#136 = .rejected .reservedOpcode ∧
    decode 0x100000000000003E800000000000000001#136 = .rejected .reservedField ∧
    decode 0x2100000000000000640000000000000000#136 = .rejected .reservedField ∧
    decode 0x2000000000000000640000000000000001#136 = .rejected .reservedField ∧
    decode 0x320000000000000000000000000000000A#136 = .rejected .reservedField ∧
    decode 0x480000000000000000000000000000000A#136 = .rejected .reservedField := by decide

/-- R51, R71: the host's word is supplied as the next input and the next step takes it. -/
theorem test_withFetchWord :
    told (step (State.reset.withFetchWord 136 0x100000000000003E800000000000000000)) = some ([], [.ok]) := by decide

/-! ## One step of each instruction -/

/-- V3, first row: 15 999 Hz is a ConfigurationError and only `SESSION` changes. -/
theorem test_cfg_below_min :
    next? (exec (.cfg .blaster .raw 15999#64) State.reset)
      = some { State.reset with session := .halted, out := [.response (.fault .configurationError)] } := by decide

/-- V3, fourth row: `cfg smartdevice pre 16000`. -/
theorem test_cfg_at_min :
    next? (exec (.cfg .smartdevice .pre 16000#64) State.reset)
      = some { State.reset with
          session := .running, profile := .smartdevice, mode := .pre, rate := 16000#64, ahc := 1#64, ihc := 3#64,
          margin := 0#64, out := [.response .ok] } := by decide

/-- P7, step 16: the edge 3185 completes a pair of `Inactive` half-cycles in `Data`. -/
theorem test_edge_pair :
    told (exec (.edge 3185#64) { edges 2686#64 2874#64 .inactive with fs := .data, fbCnt := 2#4 })
      = some ([⟨.rawBit, 2686#64, 3185#64, 1⟩, ⟨.dataBit, 2686#64, 3185#64, 1⟩], [.ok]) := by decide

/-- P8, step 6: the edge 600 after 625 is an `Error` half-cycle, and the reference moves back. -/
theorem test_edge_decreasing :
    next? (exec (.edge 600#64) (edges 625#64 625#64 .none))
      = some { edges 625#64 600#64 .none with out := [.event ⟨.decodeAbort, 625#64, 600#64, 1⟩, .response .ok] } := by
  decide

/-- V6, row 9: a 0 in `FrameStop2` is the next start bit. -/
theorem test_bit_start :
    told (exec (.bit false 100#64 110#64) (framer .frameStop2 0#4 [frame02]))
      = some ([⟨.startBit, 100#64, 110#64, 0⟩], [.ok]) := by decide

/-- V9: a BIT item in raw-timing mode is refused. -/
theorem test_bit_wrongMode :
    told (exec (.bit false 0#64 4#64) raw) = some ([], [.refused .wrongMode]) := by decide

/-- V6, row 17: an Error empties the frame in progress and the block behind it. -/
theorem test_err :
    next? (exec (.err .invalid 130#64 140#64)
        { framer .data 2#4 [frame02] with fbBits := 0b10#9, fbSs := 110#64, fbEs := 130#64 })
      = some { pre with out := [.event ⟨.decodeAbort, 130#64, 140#64, 1⟩, .response .ok] } := by decide

/-- V6, row 1. -/
theorem test_bit0Idle :
    next? (exec (.bit0Idle 0#64 10#64) pre)
      = some { framer .data 1#4 [] with fbEs := 10#64, out := [.event ⟨.startBit, 0#64, 10#64, 0⟩, .response .ok] } := by
  decide

/-- V6, row 2. -/
theorem test_bit1Idle : next? (exec (.bit1Idle 0#64 10#64) pre) = some { pre with out := [.response .ok] } := by decide

/-- P2, step 6: the third data bit, a 0, of `0x02`. -/
theorem test_bit0Data :
    next? (exec (.bit0Data 850#64 1100#64) { framer .data 3#4 [] with fbBits := 0b100#9, fbSs := 100#64, fbEs := 850#64 })
      = some { framer .data 4#4 [] with
          fbBits := 0b100#9, fbSs := 100#64, fbEs := 1100#64,
          out := [.event ⟨.dataBit, 850#64, 1100#64, 0⟩, .response .ok] } := by decide

/-- V6, row 4: the eighth data bit, after `0` and `1 0 1 0 0 1 0`. -/
theorem test_bit1Data :
    next? (exec (.bit1Data 80#64 90#64) { framer .data 8#4 [] with fbBits := 0b001001010#9, fbEs := 80#64 })
      = some { framer .frameStop 9#4 [] with
          fbBits := 0b101001010#9, fbEs := 90#64,
          out := [.event ⟨.dataBit, 80#64, 90#64, 1⟩, .response .ok] } := by decide

/-- V6, row 5, at an unbounded capacity: the rule of BIT1.FrameStop. -/
theorem test_ruleFrameStop1 :
    (match ruleFrameStop1 none 90#64 100#64 { framer .frameStop 9#4 [] with fbBits := 0b101001010#9, fbEs := 90#64 } with
      | .next s => some s
      | _ => none)
      = some { framer .frameStop2 0#4 [⟨0xA5#8, 0#64, 100#64⟩] with
          out := [.event ⟨.stopBit, 90#64, 100#64, 1⟩, .event ⟨.frame, 0#64, 100#64, 0xA5⟩] } := by decide

/-- V9, last row: the rule of BIT1.FrameStop at a capacity of 1 with one frame in the block. -/
theorem test_ruleFrameStop1_full :
    (match ruleFrameStop1 (some 1) 90#64 100#64 (framer .frameStop 9#4 [frame02]) with
      | .refused q => some q
      | _ => none) = some .blockFull := by decide

/-- V6, row 6: a framing error with an empty block. -/
theorem test_bit0FrameStop :
    next? (exec (.bit0FrameStop 90#64 100#64) { framer .frameStop 9#4 [] with fbBits := 0b101001010#9, fbEs := 90#64 })
      = some { pre with out := [.event ⟨.framingError, 0#64, 90#64, 0⟩, .response .ok] } := by decide

/-- V6, row 7: a framing error with a block of two frames. -/
theorem test_bit0FrameStop_block :
    told (exec (.bit0FrameStop 300#64 310#64)
        { framer .frameStop 9#4 [frame02, ⟨0x07#8, 100#64, 200#64⟩] with fbSs := 210#64, fbEs := 300#64 })
      = some ([⟨.framingError, 210#64, 300#64, 0⟩, ⟨.blockError, 0#64, 300#64, 2⟩], [.ok]) := by decide

/-- V6, row 8. -/
theorem test_bit1FrameStop2 :
    next? (exec (.bit1FrameStop2 100#64 110#64) (framer .frameStop2 0#4 [frame02]))
      = some { framer .blockStop 0#4 [frame02] with
          out := [.event ⟨.spacerBit, 100#64, 110#64, 1⟩, .response .ok] } := by decide

/-- V6, row 9. -/
theorem test_bit0FrameStop2 :
    next? (exec (.bit0FrameStop2 100#64 110#64) (framer .frameStop2 0#4 [frame02]))
      = some { framer .data 1#4 [frame02] with
          fbSs := 100#64, fbEs := 110#64, out := [.event ⟨.startBit, 100#64, 110#64, 0⟩, .response .ok] } := by decide

/-- V6, row 10. -/
theorem test_bit1BlockStop :
    told (exec (.bit1BlockStop 110#64 120#64) (framer .blockStop 0#4 [frame02]))
      = some ([⟨.blockEnd, 110#64, 120#64, 1⟩, ⟨.block, 0#64, 120#64, 1⟩, ⟨.badLength, 0#64, 120#64, 1⟩,
        ⟨.badChecksum, 0#64, 120#64, 253⟩, ⟨.blockType, 0#64, 100#64, 0x02⟩, ⟨.blockTypeName, 0#64, 100#64, 0x02⟩,
        ⟨.checksumField, 0#64, 100#64, 0x02⟩], [.ok]) := by decide

/-- V6, row 11. -/
theorem test_bit0BlockStop :
    told (exec (.bit0BlockStop 110#64 120#64) (framer .blockStop 0#4 [frame02]))
      = some ([⟨.startBit, 110#64, 120#64, 0⟩], [.ok]) := by decide

/-- V6, row 16. -/
theorem test_errAny :
    next? (exec (.errAny .phase 110#64 120#64) (framer .blockStop 0#4 [frame02]))
      = some { pre with out := [.event ⟨.decodeAbort, 110#64, 120#64, 0⟩, .response .ok] } := by decide

/-! ## Operations -/

/-- V2: the bounds of both windows at `blaster`, 1 000 000 Hz. -/
theorem test_classifyInterval :
    [-5, 0, 62, 63, 186, 187, 188, 311, 312].map (classifyInterval 125#64 250#64 62#64)
      = [.error, .error, .error, .active, .active, .error, .inactive, .inactive, .error] := by decide

/-- V5: the byte of `d0 .. d7` = `1 0 1 0 0 1 0 1`, `0 1 0 0 0 0 0 0` and `0 0 1 0 1 1 0 1`. -/
theorem test_packByte :
    [0b101001010#9, 0b000000100#9, 0b101101000#9].map packByte = [0xA5#8, 0x02#8, 0xB4#8] := by decide

/-- V7: the checksum value where the accumulator is negative, and where it is a multiple of 256. -/
theorem test_checksumValue :
    [[0x02#8, 0xFE#8], [0xFF#8, 0xFF#8, 0xFF#8], [0x80#8, 0x80#8, 0xFF#8]].map
        (fun bs => checksumValue (bs.map fun b => ⟨b, 0#64, 0#64⟩)) = [1, 254, 0] := by decide

/-- V10: two event words in full. -/
theorem test_event_word :
    Event.word ⟨.frame, 1000#64, 5750#64, 0xFF⟩ = 0x0700000000000000FF00000000000003E80000000000001676#200 ∧
    Event.word ⟨.dataByte, 1980#64, 2180#64, 0x0890⟩ = 0x13000000000000089000000000000007BC0000000000000884#200 := by
  decide

/-- R35: the status word of a running pre-classified session in `BlockStop`. -/
theorem test_status : (framer .blockStop 0#4 [frame02]).status = 0b100010101#9 := by decide

/-- R88: a word and an event in the spec's notation (P2, steps 5 and 12). -/
theorem test_text :
    itemWordText (encode (.bit true 600#64 850#64)) = "31_0000000000000258_0000000000000352".toList ∧
    itemText (.bit true 600#64 850#64) = "bit 1 600 850".toList ∧
    itemText (.cfg .blaster .pre 0#64) = "cfg blaster pre missing".toList ∧
    Event.text ⟨.startBit, 100#64, 350#64, 0⟩ = "START_BIT(100, 350, 0)".toList := by decide

/-! ## Witnesses: the hypotheses of each statement, met together

One theorem for each statement with hypotheses, in the order of `Obligations.lean`; where a statement has several
clauses, a part for each, at a boundary value. -/

theorem witness_DecodeInvertsEncode : Instr.wellFormed (.err .invalid 6950#64 7000#64) = true := by decide

theorem witness_EveryItemWordHasOneReading :
    decode 0x11FFFFFFFFFFFFFFFF0000000000000000#136 = .item (.cfg .smartdevice .raw (BitVec.allOnes 64)) := by decide

/-- The reserved opcodes 0, 5 and 15, in a halted session. -/
theorem witness_ReservedOpcodeRefused :
    ∀ op ∈ [0, 5, 15], let w : ItemWord := BitVec.ofNat 136 (op * 2 ^ 132)
      (withWords halted [w]).inp = .item w :: [] ∧
      ((w.extractLsb' 132 4).toNat = 0 ∨ 5 ≤ (w.extractLsb' 132 4).toNat) := by decide

/-- One reserved bit set in each reserved field. -/
theorem witness_ReservedFieldRefused :
    (let w : ItemWord := 0x140000000000003E800000000000000000#136;
      (withWords raw [w]).inp = .item w :: [] ∧ w.extractLsb' 132 4 = 1#4 ∧ (w.extractLsb' 130 2 ≠ 0#2 ∨ w.extractLsb' 0 64 ≠ 0#64)) ∧
    (let w : ItemWord := 0x100000000000003E800000000000000001#136;
      (withWords raw [w]).inp = .item w :: [] ∧ w.extractLsb' 132 4 = 1#4 ∧ (w.extractLsb' 130 2 ≠ 0#2 ∨ w.extractLsb' 0 64 ≠ 0#64)) ∧
    (let w : ItemWord := 0x2100000000000000640000000000000000#136;
      (withWords raw [w]).inp = .item w :: [] ∧ w.extractLsb' 132 4 = 2#4 ∧ (w.extractLsb' 128 4 ≠ 0#4 ∨ w.extractLsb' 0 64 ≠ 0#64)) ∧
    (let w : ItemWord := 0x2000000000000000640000000000000001#136;
      (withWords raw [w]).inp = .item w :: [] ∧ w.extractLsb' 132 4 = 2#4 ∧ (w.extractLsb' 128 4 ≠ 0#4 ∨ w.extractLsb' 0 64 ≠ 0#64)) ∧
    (let w : ItemWord := 0x320000000000000000000000000000000A#136;
      (withWords pre [w]).inp = .item w :: [] ∧ w.extractLsb' 132 4 = 3#4 ∧ w.extractLsb' 129 3 ≠ 0#3) ∧
    (let w : ItemWord := 0x480000000000000000000000000000000A#136;
      (withWords pre [w]).inp = .item w :: [] ∧ w.extractLsb' 132 4 = 4#4 ∧ w.extractLsb' 129 3 ≠ 0#3) :=
  ⟨by decide, by decide, by decide, by decide, by decide, by decide⟩

/-- The word of `bit 1 600 850`. -/
def wordBit1 : ItemWord := 0x3100000000000002580000000000000352#136

/-- The word of `edge 100`. -/
def wordEdge : ItemWord := 0x2000000000000000640000000000000000#136

theorem witness_StepRunsTheDecodedItem :
    (withWords pre [wordBit1]).inp = .item wordBit1 :: [] ∧ decode wordBit1 = .item (.bit true 600#64 850#64) := by
  decide

/-- A halted session with a reset as its next input: it leaves `Halted`. -/
theorem witness_ResetGivesTheTableOfR221 :
    ({ halted with inp := [.reset] } : State).inp = .reset :: [] ∧ halted.session ≠ .unconfigured ∧
    step { halted with inp := [.reset] } = .next State.reset ∧ State.reset.session ≠ halted.session :=
  ⟨rfl, by decide, rfl, by decide⟩

theorem witness_IdleWithoutInput : pre.inp = [] := rfl

theorem witness_OneResponsePerItem :
    (withWords pre [wordBit1]).inp = .item wordBit1 :: [] ∧
    step (withWords pre [wordBit1]) = .next { pre with out := [.response .ok] } := ⟨rfl, rfl⟩

theorem witness_RefusedItemChangesNothing :
    (withWords pre [wordEdge]).inp = .item wordEdge :: [] ∧
    step (withWords pre [wordEdge]) = .next { pre with out := [.response (.refused .wrongMode)] } ∧
    ({ pre with out := [.response (.refused .wrongMode)] } : State).out
      = (withWords pre [wordEdge]).out ++ delivery [] (.refused .wrongMode) := ⟨rfl, rfl, rfl⟩

/-- A state for each clause of the priority but the last. -/
theorem witness_RefusalPriority :
    decode 0x5000000000000000000000000000000000#136 = .rejected .reservedOpcode ∧
    decode 0x140000000000003E800000000000000000#136 = .rejected .reservedField ∧
    (decode wordEdge = .item (.edge 100#64) ∧ (withWords halted [wordEdge]).session = .halted) ∧
    (withWords State.reset [wordEdge]).session = .unconfigured ∧
    (decode 0x100000000000003E800000000000000000#136 = .item (.cfg .blaster .raw 16000#64) ∧
      raw.session = .running) ∧
    ((withWords pre [wordEdge]).session = .running ∧ (withWords pre [wordEdge]).mode = .pre) ∧
    (decode wordBit1 = .item (.bit true 600#64 850#64) ∧
      (withWords raw [wordBit1]).session = .running ∧ (withWords raw [wordBit1]).mode = .raw) ∧
    decode 0x4000000000000000000000000000000004#136 = .item (.err .phase 0#64 4#64) := by decide

/-- The last clause, at whatever finite capacity the core has: a full block in `FrameStop`, in each mode. -/
theorem witness_RefusalPriority_blockFull (c : Nat) :
    let full : State := withWords (framer .frameStop 9#4 (List.replicate c frame02)) [wordBit1]
    let fullRaw : State :=
      withWords { edges 0#64 100#64 .inactive with fs := .frameStop, bb := List.replicate c frame02 }
        [0x20000000000000015E0000000000000000#136]
    (full.bb.length = c ∧ full.fs = .frameStop ∧ full.session = .running ∧ full.mode = .pre ∧
      decode wordBit1 = .item (.bit true 600#64 850#64)) ∧
    (fullRaw.bb.length = c ∧ fullRaw.fs = .frameStop ∧ fullRaw.session = .running ∧ fullRaw.mode = .raw ∧
      decode 0x20000000000000015E0000000000000000#136 = .item (.edge 350#64) ∧ fullRaw.e1v = true ∧
      fullRaw.pk = .inactive ∧
      classifyInterval fullRaw.ahc fullRaw.ihc fullRaw.margin (((350#64).toNat : Int) - fullRaw.e1.toNat)
        = .inactive) :=
  ⟨⟨List.length_replicate, rfl, rfl, rfl, by decide⟩,
    ⟨List.length_replicate, rfl, rfl, rfl, by decide, rfl, rfl, rfl⟩⟩

theorem witness_EventWordFields : (⟨.block, 0#64, 0#64, 2 ^ 64 - 1⟩ : Event).val < 2 ^ 64 := by decide

theorem witness_CfgConfigures :
    halted.session = .halted ∧ raw.session = .running ∧ State.reset.session = .unconfigured ∧
    (15999#64).toNat < 16000 ∧ 16000 ≤ (16000#64).toNat := by decide

theorem witness_ConfigurationErrorExactly :
    exec (.cfg .blaster .raw 15999#64) State.reset
      = .next { State.reset with session := .halted, out := [.response (.fault .configurationError)] } ∧
    ([.response (.fault .configurationError)] : List Output)
      = State.reset.out ++ delivery [] (.fault .configurationError) := ⟨rfl, rfl⟩

/-- The lowest legal rate, and the rates on both sides of the bound in the third fact (V1). -/
theorem witness_WindowFacts :
    16000 ≤ (16000#64).toNat ∧ 16000 ≤ (17699#64).toNat ∧ 16000 ≤ (17700#64).toNat := by decide

/-- Both bounds of both windows, and the lengths just outside. -/
theorem witness_ComparatorPromise :
    raw.session = .running ∧ ConfigInv raw ∧
    (∀ n ∈ [63, 186], (raw.ahc.toNat : Int) - raw.margin.toNat ≤ n ∧ n < (raw.ahc.toNat : Int) + raw.margin.toNat) ∧
    (∀ n ∈ [188, 311], (raw.ihc.toNat : Int) - raw.margin.toNat ≤ n ∧ n < (raw.ihc.toNat : Int) + raw.margin.toNat) ∧
    (∀ n ∈ [62, 187, 312],
      ¬ ((raw.ahc.toNat : Int) - raw.margin.toNat ≤ n ∧ n < (raw.ahc.toNat : Int) + raw.margin.toNat) ∧
      ¬ ((raw.ihc.toNat : Int) - raw.margin.toNat ≤ n ∧ n < (raw.ihc.toNat : Int) + raw.margin.toNat)) := by decide

theorem witness_FirstEdgeSetsReference : ReadyForEdges raw ∧ raw.e1v = false := by decide

/-- The state of P7 before step 10, and its edge 2187. -/
theorem witness_ErrorHalfCycleAborts :
    let s := edges 1875#64 2000#64 .active
    ReadyForEdges s ∧ s.e1v = true ∧
    classifyInterval s.ahc s.ihc s.margin (((2187#64).toNat : Int) - s.e1.toNat) = .error := by decide

/-- An `Active` half-cycle (63 ticks) that meets nothing, and an `Inactive` one (311 ticks) that meets an `Active`. -/
theorem witness_UnpairedHalfCycleWaits :
    (let s := edges 0#64 1000#64 .none;
      ReadyForEdges s ∧ s.e1v = true ∧
      classifyInterval s.ahc s.ihc s.margin (((1063#64).toNat : Int) - s.e1.toNat) = .active ∧ s.pk ≠ .active) ∧
    (let s := edges 0#64 1000#64 .active;
      ReadyForEdges s ∧ s.e1v = true ∧
      classifyInterval s.ahc s.ihc s.margin (((1311#64).toNat : Int) - s.e1.toNat) = .inactive ∧
      s.pk ≠ .inactive) := by decide

/-- A pair of each kind, taken by the framer in `Idle`: a start bit, and an ignored 1. -/
theorem witness_PairActsAsBitItem :
    (let s := edges 1000#64 1125#64 .active;
      ReadyForEdges s ∧ s.e1v = true ∧
      classifyInterval s.ahc s.ihc s.margin (((1250#64).toNat : Int) - s.e1.toNat)
        = (if false then HalfCycleKind.inactive else HalfCycleKind.active) ∧
      s.pk = (if false then PendingKind.inactive else PendingKind.active) ∧
      next? (exec (.bit false s.e2 1250#64) { s with mode := .pre })
        = some { s with
            mode := .pre, fs := .data, fbCnt := 1#4, fbSs := 1000#64, fbEs := 1250#64,
            out := s.out ++ delivery [⟨.startBit, 1000#64, 1250#64, 0⟩] .ok }) ∧
    (let s := edges 1125#64 1375#64 .inactive;
      ReadyForEdges s ∧ s.e1v = true ∧
      classifyInterval s.ahc s.ihc s.margin (((1625#64).toNat : Int) - s.e1.toNat)
        = (if true then HalfCycleKind.inactive else HalfCycleKind.active) ∧
      s.pk = (if true then PendingKind.inactive else PendingKind.active) ∧
      next? (exec (.bit true s.e2 1625#64) { s with mode := .pre })
        = some { s with mode := .pre, out := s.out ++ delivery [] .ok }) := by decide

/-- The second clause, at whatever finite capacity the core has. -/
theorem witness_PairActsAsBitItem_full (c : Nat) (h : Config.blockCap = some c) :
    let s := { edges 0#64 100#64 .inactive with fs := .frameStop, bb := List.replicate c frame02 }
    exec (.bit true s.e2 350#64) { s with mode := .pre }
      = .next { s with mode := .pre, out := s.out ++ delivery [] (.refused .blockFull) } := by
  intro s
  have hb : blockFull Config.blockCap s.bb.length = true := by simp [s, h, blockFull]
  change execBit _ _ _ _ = _
  unfold execBit
  rw [runItem_of_legal rfl]
  change complete _ (ruleFrameStop1 _ _ _ _) = _
  unfold ruleFrameStop1
  rw [if_pos (by exact hb)]
  rfl

/-- A block of ten frames has room at every capacity the spec allows. -/
theorem witness_EdgeCompletes :
    let s := { edges 0#64 100#64 .inactive with
      fs := .frameStop, fbCnt := 9#4, bb := List.replicate 10 frame02 }
    ReadyForEdges s ∧ FramerInv s ∧ s.e1v = true ∧ blockFull Config.blockCap s.bb.length = false :=
  ⟨by decide, by decide, rfl, blockFull_of_lt (by decide)⟩

/-- P8, steps 5 and 6: an equal and a smaller timestamp. -/
theorem witness_NonIncreasingEdgeIsError :
    let s := edges 500#64 625#64 .active
    ReadyForEdges s ∧ ConfigInv s ∧ s.e1v = true ∧ (625#64).toNat ≤ s.e1.toNat ∧ (600#64).toNat ≤ s.e1.toNat := by
  decide

theorem witness_EdgeHistoryAndConfigurationFrame :
    exec (.edge 500#64) raw = .next { raw with e1v := true, e1 := 500#64, out := [.response .ok] } := rfl

theorem witness_ItemsRunTheirRows :
    pre.fs = .idle ∧ (framer .data 1#4 []).fs = .data ∧ (framer .frameStop 9#4 []).fs = .frameStop ∧
    (framer .frameStop2 0#4 [frame02]).fs = .frameStop2 ∧ (framer .blockStop 0#4 [frame02]).fs = .blockStop := by decide

theorem witness_StartBitStartsFrame :
    (ReadyForBits pre ∧ pre.fs = .idle ∧ FramerInv pre) ∧
    (ReadyForBits (framer .frameStop2 0#4 [frame02]) ∧ (framer .frameStop2 0#4 [frame02]).fs = .frameStop2) ∧
    (ReadyForBits (framer .blockStop 0#4 [frame02]) ∧ (framer .blockStop 0#4 [frame02]).fs = .blockStop) := by decide

/-- In `Idle`; and P7 before step 6, with its edge 1625. -/
theorem witness_IdleLineIgnored :
    (ReadyForBits pre ∧ pre.fs = .idle) ∧
    (let s := edges 1125#64 1375#64 .inactive;
      ReadyForEdges s ∧ s.fs = .idle ∧ s.e1v = true ∧ s.pk = .inactive ∧
      classifyInterval s.ahc s.ihc s.margin (((1625#64).toNat : Int) - s.e1.toNat) = .inactive) := by decide

/-- The first and the last data bit. -/
theorem witness_DataBitAppended :
    ∀ cnt ∈ [1#4, 8#4], ReadyForBits (framer .data cnt []) ∧ (framer .data cnt []).fs = .data ∧
      (framer .data cnt []).fbCnt.toNat ≤ 8 := by decide

/-- An empty block, and a block of ten frames, have room at every capacity the spec allows. -/
theorem witness_StopBitCompletesFrame :
    ∀ n ∈ [0, 10], ReadyForBits (framer .frameStop 9#4 (List.replicate n frame02)) ∧
      (framer .frameStop 9#4 (List.replicate n frame02)).fs = .frameStop ∧
      (∀ c, Config.blockCap = some c → (framer .frameStop 9#4 (List.replicate n frame02)).bb.length ≠ c) := by
  intro n hn
  refine ⟨⟨rfl, rfl⟩, rfl, fun c hc => ?_⟩
  have := blockCap_ge hc
  simp at hn
  simp [framer]
  omega

theorem witness_FullBlockRefusesStopBit :
    ReadyForBits (framer .frameStop 9#4 (List.replicate 11 frame02)) ∧
    (framer .frameStop 9#4 (List.replicate 11 frame02)).fs = .frameStop := by decide

/-- With a block of two frames and with none (V6, rows 7 and 6). -/
theorem witness_FramingErrorDiscards :
    ∀ bb ∈ [[], [frame02, frame02]], ReadyForBits (framer .frameStop 9#4 bb) ∧
      (framer .frameStop 9#4 bb).fs = .frameStop := by decide

theorem witness_SpacerBit :
    ReadyForBits (framer .frameStop2 0#4 [frame02]) ∧ (framer .frameStop2 0#4 [frame02]).fs = .frameStop2 := by decide

theorem witness_TerminatorSealsBlock :
    ReadyForBits (framer .blockStop 0#4 [frame02]) ∧ (framer .blockStop 0#4 [frame02]).fs = .blockStop ∧
    (framer .blockStop 0#4 [frame02]).bb = frame02 :: [] := by decide

theorem witness_ErrorResetsFramer : ReadyForBits (framer .blockStop 0#4 [frame02]) := by decide

/-- A state for each value of `FS`, in `Data` also with the last data bit to come. -/
theorem witness_TransitionTable :
    ∀ s ∈ [pre, framer .data 1#4 [], framer .data 8#4 [], framer .frameStop 9#4 [], framer .frameStop 9#4 [frame02],
      framer .frameStop2 0#4 [frame02], framer .blockStop 0#4 [frame02]],
      ReadyForBits s ∧ FramerInv s ∧ blockFull Config.blockCap s.bb.length = false := by
  intro s hs
  have h : ∀ s ∈ [pre, framer .data 1#4 [], framer .data 8#4 [], framer .frameStop 9#4 [],
      framer .frameStop 9#4 [frame02], framer .frameStop2 0#4 [frame02], framer .blockStop 0#4 [frame02]],
      ReadyForBits s ∧ FramerInv s ∧ s.bb.length < 11 := by decide
  obtain ⟨h1, h2, h3⟩ := h s hs
  exact ⟨h1, h2, blockFull_of_lt h3⟩

theorem witness_StopsOfTheModel :
    (ReadyForBits pre ∧ Instr.selector (.bit1BlockStop 0#64 10#64) = some .blockStop ∧ pre.fs ≠ .blockStop) ∧
    (ReadyForBits (framer .data 9#4 []) ∧ (framer .data 9#4 []).fs = .data ∧
      8 < (framer .data 9#4 []).fbCnt.toNat) ∧
    (ReadyForBits (framer .blockStop 0#4 []) ∧ (framer .blockStop 0#4 []).fs = .blockStop ∧
      (framer .blockStop 0#4 []).bb = []) := by decide

theorem witness_FramerItemsFrame :
    (∀ p m r, Instr.bit true 0#64 10#64 ≠ .cfg p m r) ∧ (∀ u, Instr.bit true 0#64 10#64 ≠ .edge u) ∧
    exec (.bit true 0#64 10#64) pre = .next { pre with out := [.response .ok] } :=
  ⟨fun _ _ _ h => (nomatch h), fun _ h => (nomatch h), rfl⟩

/-- A stop bit, which gives a FRAME event and a longer block; and a terminator, which gives a BLOCK event. -/
theorem witness_FramesAndBlocksOnlyAtTheirBits :
    (∃ (t : State) (evs : List Event) (r : Response), exec (.bit true 90#64 100#64) (framer .frameStop 9#4 []) = .next t ∧
      t.out = (framer .frameStop 9#4 []).out ++ delivery evs r ∧ (∃ e ∈ evs, e.kind = .frame) ∧
      (framer .frameStop 9#4 []).bb.length < t.bb.length) ∧
    (∃ (t : State) (evs : List Event) (r : Response),
      exec (.bit true 110#64 120#64) (framer .blockStop 0#4 [frame02]) = .next t ∧
      t.out = (framer .blockStop 0#4 [frame02]).out ++ delivery evs r ∧ (∃ e ∈ evs, e.kind = .block)) := by
  have hb : blockFull Config.blockCap (framer .frameStop 9#4 []).bb.length = false := blockFull_of_lt (by decide)
  refine ⟨⟨{ framer .frameStop2 0#4 [⟨0#8, 0#64, 100#64⟩] with
      out := delivery [⟨.stopBit, 90#64, 100#64, 1⟩, ⟨.frame, 0#64, 100#64, 0⟩] .ok },
      [⟨.stopBit, 90#64, 100#64, 1⟩, ⟨.frame, 0#64, 100#64, 0⟩], .ok, ?_, rfl, by decide, by decide⟩,
    ⟨_, ⟨.blockEnd, 110#64, 120#64, 1⟩ :: decodeBlock frame02 [] 0#64 120#64, .ok, rfl, rfl, by decide⟩⟩
  change execBit _ _ _ _ = _
  unfold execBit
  rw [runItem_of_legal rfl]
  change complete _ (ruleFrameStop1 _ _ _ _) = _
  unfold ruleFrameStop1
  rw [if_neg (by rw [hb]; decide)]
  rfl

/-- The three states in which a 0 is a start bit, the block holding up to ten frames. -/
theorem witness_TenBitsGiveOneFrame :
    ∀ s ∈ [pre, framer .frameStop2 0#4 (List.replicate 10 frame02), framer .blockStop 0#4 [frame02]],
      ReadyForBits s ∧ (s.fs = .idle ∨ s.fs = .frameStop2 ∨ s.fs = .blockStop) ∧
      blockFull Config.blockCap s.bb.length = false := by
  intro s hs
  have h : ∀ s ∈ [pre, framer .frameStop2 0#4 (List.replicate 10 frame02), framer .blockStop 0#4 [frame02]],
      ReadyForBits s ∧ (s.fs = .idle ∨ s.fs = .frameStop2 ∨ s.fs = .blockStop) ∧ s.bb.length < 11 := by decide
  obtain ⟨h1, h2, h3⟩ := h s hs
  exact ⟨h1, h2, blockFull_of_lt h3⟩

/-- V7: `02 FD` is valid; an accumulator below 0, one not below 0, and one byte changed. -/
theorem witness_ChecksumLaws :
    checksumAcc [⟨0x02#8, 0#64, 0#64⟩, ⟨0xFE#8, 0#64, 0#64⟩] < 0 ∧ 0 ≤ checksumAcc [⟨0x02#8, 0#64, 0#64⟩] ∧
    checksumValue ([⟨0x02#8, 0#64, 0#64⟩] ++ ⟨0xFD#8, 0#64, 0#64⟩ :: []) = 0 ∧ 0xFC#8 ≠ 0xFD#8 := by decide

/-- P3's block of eleven frames, and ten frames with a right and with a wrong checksum. -/
theorem witness_TaggerStatusBlock :
    (∀ bs ∈ [[0x10#8, 0x20#8, 0x30#8, 0x40#8, 0x50#8, 0x60#8, 0x70#8, 0x80#8, 0x90#8, 0x2D#8],
        [0x10#8, 0x20#8, 0x30#8, 0x40#8, 0x50#8, 0x60#8, 0x70#8, 0x80#8, 0xBD#8],
        [0x10#8, 0x20#8, 0x30#8, 0x40#8, 0x50#8, 0x60#8, 0x70#8, 0x80#8, 0xBC#8]],
      let fs : List Frame := bs.map fun b => ⟨b, 0#64, 0#64⟩
      ReadyForBits (framer .blockStop 0#4 (frame02 :: fs)) ∧ (framer .blockStop 0#4 (frame02 :: fs)).fs = .blockStop ∧
      (framer .blockStop 0#4 (frame02 :: fs)).bb = frame02 :: fs ∧ frame02.byte = 0x02#8 ∧
      (fs.length = 10 → ((frame02 :: fs).map fun g => g.byte.toNat).sum % 256 = 255) ∧
      (fs.length = 10 ∨ fs.length = 9)) := by decide

theorem witness_SealingStepEventCount :
    ∀ n ∈ [0, 1, 10], let fs := List.replicate n frame02
      ReadyForBits (framer .blockStop 0#4 (frame02 :: fs)) ∧ (framer .blockStop 0#4 (frame02 :: fs)).fs = .blockStop ∧
      (framer .blockStop 0#4 (frame02 :: fs)).bb = frame02 :: fs := by decide

/-- A spacer in a state that meets every invariant, with the state after it: for `StepKeepsInvariant`,
`StepKeepsThresholds` and `StepKeepsCapacity`. -/
theorem witness_StepKeepsInvariant_Thresholds_Capacity :
    let s := withWords (framer .frameStop2 0#4 [frame02]) [wordBit1]
    Inv s ∧ ConfigInv s ∧ s.session = .running ∧ CapacityInv Config.blockCap s ∧
    step s = .next { framer .blockStop 0#4 [frame02] with
      out := delivery [⟨.spacerBit, 600#64, 850#64, 1⟩] .ok } := by
  refine ⟨by decide, by decide, rfl, ?_, rfl⟩
  intro c hc
  have := blockCap_ge hc
  exact Nat.le_trans (by decide) this

theorem witness_CoreNeverStops :
    Inv State.reset ∧ Reachable (State.reset.supply (.item 0x100000000000003E800000000000000000#136)) :=
  ⟨by decide, .supply _ _ .reset⟩

/-- A CFG item in an unconfigured session, and a BIT item in a running one. -/
theorem witness_ConfigurationFixedForTheRun :
    (step (withWords State.reset [0x100000000000003E7F0000000000000000#136])
        = .next { halted with out := [.response (.fault .configurationError)] } ∧
      ∀ rest, (withWords State.reset [0x100000000000003E7F0000000000000000#136]).inp ≠ .reset :: rest) ∧
    (step (withWords pre [wordBit1]) = .next { pre with out := [.response .ok] } ∧
      ∀ rest, (withWords pre [wordBit1]).inp ≠ .reset :: rest) :=
  ⟨⟨rfl, fun _ h => (nomatch h)⟩, ⟨rfl, fun _ h => (nomatch h)⟩⟩

theorem witness_HaltedRefusesEverything :
    halted.session = .halted ∧
    step (withWords halted [wordEdge]) = .next { halted with out := [.response (.refused .halted)] } ∧
    (∀ rest, (withWords halted [wordEdge]).inp ≠ .reset :: rest) ∧ decode wordEdge = .item (.edge 100#64) :=
  ⟨rfl, rfl, fun _ h => (nomatch h), by decide⟩

/-- A terminator in a second session, whose block is the one FRAME since the mark, gives a BLOCK event; and a reset in the
middle of a block moves the mark. -/
theorem witness_BlockCountIsFrameEvents :
    let delivered : List Output := [.event ⟨.frame, 0#64, 100#64, 2⟩, .response .ok]
    let sealing := { withWords (framer .blockStop 0#4 [frame02]) [wordBit1] with out := delivered ++ delivered }
    let resetting := { framer .blockStop 0#4 [frame02] with inp := [.reset], out := delivered }
    (FrameCountInv 2 sealing ∧
      step sealing = .next { pre with
        out := sealing.out ++ delivery (⟨.blockEnd, 600#64, 850#64, 1⟩ :: decodeBlock frame02 [] 0#64 850#64) .ok }) ∧
    (FrameCountInv 0 resetting ∧ step resetting = .next { State.reset with out := delivered } ∧
      sessionMark 0 resetting = 2 ∧ FrameCountInv 2 { State.reset with out := delivered }) :=
  ⟨⟨by decide, rfl⟩, by decide, rfl, rfl, by decide⟩

/-- A step with a FAULT response, and one that seals a block. -/
theorem witness_AtMostOneConditionPerItem :
    exec (.cfg .blaster .raw 15999#64) State.reset
      = .next { halted with out := State.reset.out ++ delivery [] (.fault .configurationError) } ∧
    exec (.bit true 110#64 120#64) (framer .blockStop 0#4 [frame02])
      = .next { pre with
          out := (framer .blockStop 0#4 [frame02]).out
            ++ delivery (⟨.blockEnd, 110#64, 120#64, 1⟩ :: decodeBlock frame02 [] 0#64 120#64) .ok } := ⟨rfl, rfl⟩

end Sys2Proof.Tests
end

/-!
PROOFS. The scope family (00_scope.md): a REFUSED response forces an unchanged core and no events (R7, R79).
-/

namespace Sys2Proof.Machine

/-- The two kinds of answer of an instruction: the core refuses it and delivers the refusal alone, or it runs and its
delivery ends in a response that is no refusal (R7, R78). -/
theorem exec_refuses_or_answers {i : Instr} {s t : State} (h : exec i s = .next t) :
    (∃ q, t = s.respond (.refused q)) ∨
    (∃ (evs : List Event) (r : Response), (∀ q, r ≠ .refused q) ∧ t.out = s.out ++ delivery evs r) := by
  have ok_no_refusal : ∀ q, Response.ok ≠ .refused q := fun _ => nofun
  rcases exec_next h with hq | ⟨p, m, r, -, -, -, rfl⟩ | ⟨p, m, r, -, -, -, rfl⟩ | ⟨x, -, -, u, hu, rfl⟩ |
    ⟨v, ss, es, -, -, u, hu, rfl⟩ | ⟨e, ss, es, -, -, rfl⟩
  · exact .inl hq
  · exact .inr ⟨[], .fault .configurationError, fun _ => nofun, by simp [delivery]⟩
  · exact .inr ⟨[], .ok, ok_no_refusal, by simp [delivery]⟩
  · obtain ⟨evs, he⟩ := observeEdge_out hu
    exact .inr ⟨evs, .ok, ok_no_refusal, respond_out he⟩
  · obtain ⟨evs, he⟩ := framerBit_out hu
    exact .inr ⟨evs, .ok, ok_no_refusal, respond_out he⟩
  · exact .inr ⟨[⟨.decodeAbort, ss, es, subtypeVal e⟩], .ok, ok_no_refusal, by simp [delivery]⟩

/-- The response delivered names the refusal: a refused state cannot be read as a refusal for another reason (R78). -/
theorem eq_respond_of_delivery {s t : State} {evs : List Event} {q q' : RefuseReason}
    (ht : t = s.respond (.refused q')) (ho : t.out = s.out ++ delivery evs (.refused q)) :
    t = s.respond (.refused q) := by
  obtain ⟨-, hr⟩ := delivery_inj ((respond_out_nil s (.refused q')).symm.trans (ht ▸ ho))
  rw [ht, hr]

/-- An instruction whose delivery ends in a refusal wrote nothing but that refusal (R7). -/
theorem exec_refused {i : Instr} {s t : State} {evs : List Event} {q : RefuseReason}
    (h : exec i s = .next t) (ho : t.out = s.out ++ delivery evs (.refused q)) :
    t = s.respond (.refused q) := by
  rcases exec_refuses_or_answers h with ⟨q', ht⟩ | ⟨evs', r, hr, ho'⟩
  · exact eq_respond_of_delivery ht ho
  · obtain ⟨-, hrq⟩ := delivery_inj (ho'.symm.trans ho)
    exact absurd hrq (hr q)

/-- Settles O11: a word is refused by the decoder, or it is an instruction and `exec_refused` says what it wrote. -/
theorem refusedItemChangesNothing : Obligations.RefusedItemChangesNothing := by
  intro s t w rest evs q hi h ho
  have hs : t = ({ s with inp := rest } : State).respond (.refused q) := by
    rcases step_item_next hi h with ⟨i, -, hx⟩ | ⟨e, -, ht⟩
    · exact exec_refused hx ho
    · exact eq_respond_of_delivery ht ho
  exact hs

end Sys2Proof.Machine

/-!
PROOFS. The state family (10_state.md): what every step keeps (R39, R34, R163), that the core never stops (R58), the frames
of EDGE and of BitFramer's items (R22, R26, R36), and the status view (R35).
-/

namespace Sys2Proof.Machine

/-! ## What every step keeps -/

/-- A condition on one state that holds at reset, does not read the streams, and is kept by every instruction. -/
structure StepInvariant (P : State → Prop) : Prop where
  reset : P State.reset
  streams : ∀ (s : State) (i : List Input) (o : List Output), P s → P { s with inp := i, out := o }
  instr : ∀ (i : Instr) (s t : State), P s → exec i s = .next t → P t

theorem StepInvariant.and {P Q : State → Prop} (hP : StepInvariant P) (hQ : StepInvariant Q) :
    StepInvariant fun s => P s ∧ Q s where
  reset := ⟨hP.reset, hQ.reset⟩
  streams s i o h := ⟨hP.streams s i o h.1, hQ.streams s i o h.2⟩
  instr i s t h hx := ⟨hP.instr i s t h.1 hx, hQ.instr i s t h.2 hx⟩

/-- Every step keeps it: idle, on a reset, on a word that is refused, and on an item. -/
theorem StepInvariant.keeps {P : State → Prop} (hP : StepInvariant P) {s t : State} (hs : P s)
    (h : step s = .next t) : P t := by
  rcases step_cases s with ⟨-, hx⟩ | ⟨rest, -, hx⟩ | ⟨w, rest, hi, -⟩
  · rw [hx] at h; cases h; exact hs
  · rw [hx] at h; cases h; exact hP.streams State.reset rest s.out hP.reset
  · have hs' : P { s with inp := rest } := hP.streams s rest s.out hs
    rcases step_item_next hi h with ⟨i, -, hx⟩ | ⟨e, -, rfl⟩
    · exact hP.instr i _ t hs' hx
    · exact hP.streams s rest _ hs

/-- Every state that the host can reach meets it. -/
theorem StepInvariant.of_reachable {P : State → Prop} (hP : StepInvariant P) {s : State} (h : Reachable s) : P s := by
  induction h with
  | reset => exact hP.reset
  | supply s i _ ih => exact hP.streams s _ s.out ih
  | step s t _ hst ih => exact hP.keeps ih hst

/-! ## Conditions on BitFramer's registers -/

/-- Two states agree on the registers that BitFramer owns (R26). -/
structure SameFramer (s t : State) : Prop where
  fs : t.fs = s.fs
  fbCnt : t.fbCnt = s.fbCnt
  fbBits : t.fbBits = s.fbBits
  fbSs : t.fbSs = s.fbSs
  fbEs : t.fbEs = s.fbEs
  bb : t.bb = s.bb

/-- A condition on BitFramer's registers that holds at reset and that BitFramer keeps on a Bit and on an Error. -/
structure FramerInvariant (P : State → Prop) : Prop where
  reset : P State.reset
  registers : ∀ s t : State, SameFramer s t → P s → P t
  bit : ∀ (v : Bool) (ss es : Sample) (s t : State), P s → framerBit Config.blockCap v ss es s = .next t → P t
  error : ∀ (u : ErrorSubtype) (ss es : Sample) (s : State), P s → P (framerError u ss es s)

/-- EDGE reaches BitFramer's registers only by handing it a Bit or an Error (R128). -/
theorem FramerInvariant.edge {P : State → Prop} (hP : FramerInvariant P) {x : Sample} {s t : State} (hs : P s)
    (h : observeEdge Config.blockCap x s = .next t) : P t := by
  have outside : ∀ t : State, SameFramer s t → P t := fun t ht => hP.registers s t ht hs
  rcases observeEdge_cases Config.blockCap x s with
    ⟨-, hx⟩ | ⟨-, -, hx⟩ | ⟨-, -, -, hx⟩ | ⟨-, -, -, hx⟩ | ⟨-, -, -, hx⟩ | ⟨-, -, -, hx⟩ <;> rw [hx] at h
  · cases h; exact outside _ (by constructor <;> rfl)
  · cases h; exact hP.error _ _ _ _ (outside _ (by constructor <;> rfl))
  · exact hP.bit _ _ _ _ t (outside _ (by constructor <;> rfl)) h
  · exact hP.bit _ _ _ _ t (outside _ (by constructor <;> rfl)) h
  · cases h; exact outside _ (by constructor <;> rfl)
  · cases h; exact outside _ (by constructor <;> rfl)

theorem FramerInvariant.stepInvariant {P : State → Prop} (hP : FramerInvariant P) : StepInvariant P where
  reset := hP.reset
  streams s _ _ hs := hP.registers s _ (by constructor <;> rfl) hs
  instr i s t hs h := by
    have responded : ∀ u : State, P u → P (u.respond .ok) := fun u => hP.registers u _ (by constructor <;> rfl)
    rcases exec_next h with ⟨q, rfl⟩ | ⟨p, m, r, -, -, -, rfl⟩ | ⟨p, m, r, -, -, -, rfl⟩ | ⟨x, -, -, u, hu, rfl⟩ |
      ⟨v, ss, es, -, -, u, hu, rfl⟩ | ⟨e, ss, es, -, -, rfl⟩
    · exact hP.registers s _ (by constructor <;> rfl) hs
    · exact hP.registers s _ (by constructor <;> rfl) hs
    · exact hP.registers s _ (by constructor <;> rfl) hs
    · exact responded u (hP.edge hs hu)
    · exact responded u (hP.bit v ss es s u hs hu)
    · exact responded _ (hP.error e ss es s hs)

/-- A data bit goes to a position from 1 to 8, so the start bit at position 0 stays, and the ninth bit
buffered is the one that leaves `Data` (R39, R144). -/
theorem framerInv_dataBit {s : State} {v : Bool} {es : Sample} (hs : FramerInv s) (hf : s.fs = .data) :
    FramerInv { s with
      fbBits := setFrameBit s.fbBits s.fbCnt.toNat v
      fbEs := es
      fbCnt := s.fbCnt + 1#4
      fs := if s.fbCnt.toNat = 8 then .frameStop else s.fs } := by
  obtain ⟨-, hdata, -⟩ := hs
  obtain ⟨hlo, hhi, hstart⟩ := hdata hf
  have hcnt : (s.fbCnt + 1#4).toNat = s.fbCnt.toNat + 1 := by
    rw [BitVec.toNat_add]; exact Nat.mod_eq_of_lt (show s.fbCnt.toNat + 1 < 16 by omega)
  have hne : s.fbCnt + 1#4 ≠ 0#4 := fun h0 => by simp [h0] at hcnt
  have hbit : (setFrameBit s.fbBits s.fbCnt.toNat v).getLsbD 0 = false := by
    rw [setFrameBit_getLsbD _ _ _ _ (by omega), if_neg (by omega), hstart]
  by_cases h8 : s.fbCnt.toNat = 8
  · have h9 : s.fbCnt + 1#4 = 9#4 := BitVec.eq_of_toNat_eq (by simp [hcnt, h8])
    rw [if_pos h8]
    exact ⟨nofun, nofun, fun _ => ⟨h9, hbit⟩, nofun, nofun, fun h0 => absurd h0 hne⟩
  · rw [if_neg h8, hf]
    have hrange : 1 ≤ (s.fbCnt + 1#4).toNat ∧ (s.fbCnt + 1#4).toNat ≤ 8 := by rw [hcnt]; omega
    exact ⟨nofun, fun _ => ⟨hrange.1, hrange.2, hbit⟩, nofun, nofun, nofun, fun h0 => absurd h0 hne⟩

/-- Every rule of BitFramer leaves the buffers as R39's table asks for the state it enters. -/
theorem framerInv_framerBit {cap : Option Nat} {v : Bool} {ss es : Sample} {s t : State} (hs : FramerInv s)
    (h : framerBit cap v ss es s = .next t) : FramerInv t := by
  have ⟨_, _, _, hstop2, hblock, hempty⟩ := hs
  rcases framerBit_next h with
    ⟨-, -, rfl⟩ | ⟨-, -, rfl⟩ | ⟨hf, -, rfl⟩ | ⟨-, -, -, rfl⟩ | ⟨-, -, rfl⟩ | ⟨hf, -, rfl⟩ | ⟨hf, -, f, fs, -, rfl⟩
  · simp [FramerInv]
  · exact hs
  · exact framerInv_dataBit hs hf
  · simp [FramerInv]
  · simp [FramerInv]
  · obtain ⟨hcnt, hbb⟩ := hstop2 hf
    simpa [FramerInv, hcnt] using ⟨hbb, hempty hcnt⟩
  · obtain ⟨hcnt, -⟩ := hblock hf
    simpa [FramerInv, hcnt] using hempty hcnt

theorem framerInv_framerInvariant : FramerInvariant FramerInv where
  reset := by decide
  registers s t hst hs := by
    simpa only [FramerInv, hst.fs, hst.fbCnt, hst.fbBits, hst.fbSs, hst.fbEs, hst.bb] using hs
  bit _ _ _ _ _ := framerInv_framerBit
  error _ _ _ _ _ := by simp [FramerInv]

/-- A frame is appended only to a block that is not at its capacity, so none gets over it (R163). -/
theorem capacityInv_framerBit {cap : Option Nat} {v : Bool} {ss es : Sample} {s t : State} (hs : CapacityInv cap s)
    (h : framerBit cap v ss es s = .next t) : CapacityInv cap t := by
  rcases framerBit_next h with
    ⟨-, -, rfl⟩ | ⟨-, -, rfl⟩ | ⟨-, -, rfl⟩ | ⟨-, -, hroom, rfl⟩ | ⟨-, -, rfl⟩ | ⟨-, -, rfl⟩ | ⟨-, -, f, fs, -, rfl⟩
  · exact hs
  · exact hs
  · exact hs
  · intro c hc
    have hle := hs c hc
    have hne : s.bb.length ≠ c := by
      rw [Option.mem_def.mp hc] at hroom
      exact fun he => by simp [(blockFull_some c _).mpr he] at hroom
    simp
    omega
  · simp [CapacityInv]
  · exact hs
  · simp [CapacityInv]

theorem capacityInv_framerInvariant : FramerInvariant (CapacityInv Config.blockCap) where
  reset := by simp [CapacityInv, State.reset]
  registers s t hst hs := by simpa only [CapacityInv, hst.bb] using hs
  bit _ _ _ _ _ := capacityInv_framerBit
  error _ _ _ _ _ := by simp [CapacityInv]

/-! ## Session and configuration -/

/-- Two states agree on the session and on what CFG writes (R30 to R34). -/
structure SameConfiguration (s t : State) : Prop where
  session : t.session = s.session
  profile : t.profile = s.profile
  mode : t.mode = s.mode
  rate : t.rate = s.rate
  ahc : t.ahc = s.ahc
  ihc : t.ihc = s.ihc
  margin : t.margin = s.margin

theorem FramerFrame.sameConfiguration {s t : State} (h : FramerFrame s t) : SameConfiguration s t :=
  ⟨h.session, h.profile, h.mode, h.rate, h.ahc, h.ihc, h.margin⟩

/-- The response of an item is outside the registers that BitFramer leaves alone. -/
theorem FramerFrame.respond {s t : State} (h : FramerFrame s t) (r : Response) : FramerFrame s (t.respond r) :=
  ⟨h.session, h.profile, h.mode, h.rate, h.ahc, h.ihc, h.margin, h.e1v, h.e1, h.e2, h.pk, h.inp⟩

theorem respond_framerFrame (s : State) (r : Response) : FramerFrame s (s.respond r) := by
  constructor <;> rfl

/-- BIT, ERR and the transition rows write nothing but BitFramer's registers and the output (R26, R36). -/
theorem exec_framerFrame {i : Instr} {s t : State} (hcfg : ∀ p m r, i ≠ .cfg p m r) (hedge : ∀ x, i ≠ .edge x)
    (h : exec i s = .next t) : FramerFrame s t := by
  rcases exec_next h with ⟨q, rfl⟩ | ⟨p, m, r, hi, -⟩ | ⟨p, m, r, hi, -⟩ | ⟨x, hi, -⟩ |
    ⟨v, ss, es, -, -, u, hu, rfl⟩ | ⟨e, ss, es, -, -, rfl⟩
  · exact respond_framerFrame s _
  · exact absurd hi (hcfg p m r)
  · exact absurd hi (hcfg p m r)
  · exact absurd hi (hedge x)
  · exact (framerBit_frame hu).respond .ok
  · exact (framerError_frame e ss es s).respond .ok

/-- All that an instruction can do to the session and to the configuration: CFG in an unconfigured session ends it or
configures it, and everything else leaves them (R30 to R36). -/
theorem exec_configuration {i : Instr} {s t : State} (h : exec i s = .next t) :
    SameConfiguration s t ∨
    (∃ p m r, i = .cfg p m r ∧ s.session = .unconfigured ∧
      (r.toNat < minRate ∧ t = raiseConfigurationError s ∨
       minRate ≤ r.toNat ∧ t = (configure p m r s).respond .ok)) := by
  rcases exec_next h with ⟨q, rfl⟩ | ⟨p, m, r, hi, hs, hr, ht⟩ | ⟨p, m, r, hi, hs, hr, ht⟩ | ⟨x, -, -, u, hu, rfl⟩ |
    ⟨v, ss, es, -, -, u, hu, rfl⟩ | ⟨e, ss, es, -, -, rfl⟩
  · exact .inl (respond_framerFrame s _).sameConfiguration
  · exact .inr ⟨p, m, r, hi, hs, .inl ⟨hr, ht⟩⟩
  · exact .inr ⟨p, m, r, hi, hs, .inr ⟨hr, ht⟩⟩
  · obtain ⟨hsess, hprof, hmode, hrate, hahc, hihc, hmargin, -⟩ := observeEdge_frame hu
    exact .inl ⟨hsess, hprof, hmode, hrate, hahc, hihc, hmargin⟩
  · exact .inl ((framerBit_frame hu).respond .ok).sameConfiguration
  · exact .inl ((framerError_frame e ss es s).respond .ok).sameConfiguration

theorem configInv_stepInvariant : StepInvariant ConfigInv where
  reset := nofun
  streams _ _ _ hs := hs
  instr i s t hs h := by
    rcases exec_configuration h with hc | ⟨p, m, r, -, -, ⟨-, rfl⟩ | ⟨hr, rfl⟩⟩
    · simpa only [ConfigInv, hc.session, hc.profile, hc.rate, hc.ahc, hc.ihc, hc.margin] using hs
    · exact nofun
    · exact fun _ => ⟨hr, rfl, rfl, rfl⟩

/-! ## The classifier's and the session's rows of R39's table -/

/-- In an unconfigured session the classifier holds its reset values, so CFG may open either mode. -/
theorem classifierInv_configure {s : State} (hs : SessionInv s) (hu : s.session = .unconfigured) (p : Profile)
    (m : Mode) (r : BitVec 64) : ClassifierInv (configure p m r s) := by
  have hreset := hs (by simp [hu])
  rw [hreset]
  exact ⟨fun hk => absurd rfl hk, fun _ => ⟨rfl, rfl, rfl, rfl⟩⟩

/-- The session's row asks nothing of a running session, and the response touches neither row. -/
theorem classifierInv_sessionInv_respond {u : State} (hc : ClassifierInv u) (hr : u.session = .running) :
    ClassifierInv (u.respond .ok) ∧ SessionInv (u.respond .ok) :=
  ⟨hc, fun hn => absurd hr hn⟩

/-- An item that keeps the classifier's registers keeps the classifier's row. -/
theorem classifierInv_of_framerFrame {s t : State} (hf : FramerFrame s t) (hs : ClassifierInv s) : ClassifierInv t := by
  simpa only [ClassifierInv, hf.pk, hf.e1v, hf.mode, hf.e1, hf.e2] using hs

/-- EDGE runs in raw-timing mode only and leaves an edge in `E1` (R22). -/
theorem classifierInv_observeEdge {cap : Option Nat} {x : Sample} {s t : State} (hr : ReadyForEdges s)
    (h : observeEdge cap x s = .next t) : ClassifierInv t := by
  obtain ⟨-, -, hmode, -, -, -, -, -, he1v, -⟩ := observeEdge_frame h
  have hraw : t.mode = .raw := hmode.trans hr.2
  exact ⟨fun _ => ⟨he1v, hraw⟩, fun hpre => by simp [hraw] at hpre⟩

/-- The two rows hold together: what CFG finds in the classifier is the session's row (R39). -/
theorem classifierInv_sessionInv_stepInvariant : StepInvariant fun s => ClassifierInv s ∧ SessionInv s where
  reset := by decide
  streams s i o := fun ⟨hc, hs⟩ => ⟨hc, fun hn => congrArg (fun u : State => { u with inp := i, out := o }) (hs hn)⟩
  instr i s t := fun ⟨hc, hs⟩ h => by
    rcases exec_next h with ⟨q, rfl⟩ | ⟨p, m, r, -, hu, -, rfl⟩ | ⟨p, m, r, -, hu, -, rfl⟩ |
      ⟨x, -, hr, u, hw, rfl⟩ | ⟨v, ss, es, -, hr, u, hw, rfl⟩ | ⟨e, ss, es, -, hr, rfl⟩
    · exact ⟨hc, fun hn => congrArg (State.respond _) (hs hn)⟩
    · exact ⟨hc, fun _ => congrArg raiseConfigurationError (hs (by simp [hu]))⟩
    · exact classifierInv_sessionInv_respond (classifierInv_configure hs hu p m r) rfl
    · have hrun : u.session = .running := (observeEdge_frame hw).1.trans hr.1
      exact classifierInv_sessionInv_respond (classifierInv_observeEdge hr hw) hrun
    · have hf := framerBit_frame hw
      exact classifierInv_sessionInv_respond (classifierInv_of_framerFrame hf hc) (hf.session.trans hr.1)
    · have hf := framerError_frame e ss es s
      exact classifierInv_sessionInv_respond (classifierInv_of_framerFrame hf hc) (hf.session.trans hr.1)

theorem inv_stepInvariant : StepInvariant Inv :=
  framerInv_framerInvariant.stepInvariant.and classifierInv_sessionInv_stepInvariant

theorem capacityInv_stepInvariant : StepInvariant (CapacityInv Config.blockCap) :=
  capacityInv_framerInvariant.stepInvariant

/-! ## The core never stops -/

/-- BitFramer stops in two states only, and neither meets the invariant (R39, U4, U18). -/
theorem framerBit_fault {cap : Option Nat} {v : Bool} {ss es : Sample} {s : State} {f : Fault}
    (h : framerBit cap v ss es s = .fault f) :
    (s.fs = .data ∧ 8 < s.fbCnt.toNat) ∨ (s.fs = .blockStop ∧ s.bb = []) := by
  unfold framerBit at h
  split at h
  · cases h
  · cases h
  · next hf =>
    unfold ruleData at h
    split at h
    · next hc => exact .inl ⟨hf, hc⟩
    · cases h
  · rcases ruleFrameStop1_cases cap ss es s with ⟨-, hr⟩ | ⟨-, hr⟩ <;> rw [hr] at h <;> cases h
  · cases h
  · cases h
  · cases h
  · next hf =>
    rcases ruleBlockStop1_cases ss es s with ⟨hb, -⟩ | ⟨g, gs, -, hr⟩
    · exact .inr ⟨hf, hb⟩
    · rw [hr] at h; cases h
  · cases h

theorem framerBit_ne_fault {cap : Option Nat} {v : Bool} {ss es : Sample} {s : State} (hs : FramerInv s) (f : Fault) :
    framerBit cap v ss es s ≠ .fault f := by
  obtain ⟨-, hdata, -, -, hblock, -⟩ := hs
  intro h
  rcases framerBit_fault h with ⟨hf, hc⟩ | ⟨hf, hb⟩
  · obtain ⟨-, hhi, -⟩ := hdata hf
    omega
  · obtain ⟨-, hlen⟩ := hblock hf
    simp [hb] at hlen

/-- EDGE hands its Bit to BitFramer with BitFramer's registers as they are, and stops nowhere else (R128). -/
theorem observeEdge_ne_fault {cap : Option Nat} {x : Sample} {s : State} (hs : FramerInv s) (f : Fault) :
    observeEdge cap x s ≠ .fault f := by
  rcases observeEdge_cases cap x s with
    ⟨-, hx⟩ | ⟨-, -, hx⟩ | ⟨-, -, -, hx⟩ | ⟨-, -, -, hx⟩ | ⟨-, -, -, hx⟩ | ⟨-, -, -, hx⟩ <;> rw [hx]
  · exact nofun
  · exact nofun
  · exact framerBit_ne_fault (s := ((s.setPending .none).advanceEdges x).emit _) hs f
  · exact framerBit_ne_fault (s := ((s.setPending .none).advanceEdges x).emit _) hs f
  · exact nofun
  · exact nofun

/-- An item whose rule does not stop the model is answered. -/
theorem runItem_answers {k : ItemKind} {rule : State → RuleResult} {s : State} (h : ∀ f, rule s ≠ .fault f) :
    ∃ t, runItem k rule s = .next t := by
  unfold runItem
  split
  · exact ⟨_, rfl⟩
  · cases hr : rule s with
    | next u => exact ⟨_, rfl⟩
    | refused q => exact ⟨_, rfl⟩
    | fault f => exact absurd hr (h f)

theorem execCfg_answers (p : Profile) (m : Mode) (r : BitVec 64) (s : State) : ∃ t, execCfg p m r s = .next t := by
  unfold execCfg
  split
  · exact ⟨_, rfl⟩
  · split
    · exact ⟨_, rfl⟩
    · exact ⟨_, rfl⟩

/-- Every item is answered where the framer's invariant holds; a transition row, which no word decodes to, need not be. -/
theorem exec_answers {i : Instr} {s : State} (hw : i.wellFormed = true) (hs : FramerInv s) :
    ∃ t, exec i s = .next t := by
  have hitem := wellFormed_iff.mp hw
  cases i with
  | cfg p m r => exact execCfg_answers p m r s
  | edge x => exact runItem_answers (observeEdge_ne_fault hs)
  | bit v ss es => exact runItem_answers (framerBit_ne_fault hs)
  | err e ss es => exact runItem_answers (k := .err) (rule := fun t => .next (framerError e ss es t)) fun _ => nofun
  | _ => simp [Instr.item] at hitem

theorem step_answers {s : State} (hs : Inv s) : ∃ t, step s = .next t := by
  rcases step_cases s with ⟨-, hx⟩ | ⟨rest, -, hx⟩ | ⟨w, rest, -, hx⟩
  · exact ⟨_, hx⟩
  · exact ⟨_, hx⟩
  · rw [hx]
    rcases stepItem_cases w { s with inp := rest } with ⟨i, hd, hi⟩ | ⟨e, -, he⟩
    · rw [hi]; exact exec_answers (decode_wellFormed hd) hs.1
    · exact ⟨_, he⟩

/-! ## The status word -/

/-- Where the six parts of a status word stand, whatever they are (R35). -/
theorem statusWord_parts (f : BitVec 3) (p m e c : Bool) (k : BitVec 2) :
    let w := f ++ BitVec.ofBool p ++ BitVec.ofBool m ++ BitVec.ofBool e ++ BitVec.ofBool c ++ k
    w.extractLsb' 0 2 = k ∧ w.getLsbD 2 = c ∧ w.getLsbD 3 = e ∧ w.getLsbD 4 = m ∧ w.getLsbD 5 = p ∧
    w.extractLsb' 6 3 = f := by
  simp only [BitVec.getLsbD_append, BitVec.extractLsb'_append_eq_right]
  refine ⟨trivial, by simp, by simp, by simp, by simp, ?_⟩
  simp only [BitVec.extractLsb'_append_eq_of_le, Nat.reduceLeDiff, Nat.reduceSub, BitVec.extractLsb'_eq_self]

theorem modeBit_eq (m : Mode) : modeBit m = decide (m = .pre) := by cases m <;> rfl

theorem profileBit_eq (p : Profile) : profileBit p = decide (p = .smartdevice) := by cases p <;> rfl

/-! ## The obligations -/

/-- Settles O51: the framer's row depends on BitFramer's registers alone, and the other two rows hold together. -/
theorem stepKeepsInvariant : Obligations.StepKeepsInvariant := fun _ _ => inv_stepInvariant.keeps

/-- Settles O52: only CFG writes the configuration, and it writes the thresholds of what it stores. -/
theorem stepKeepsThresholds : Obligations.StepKeepsThresholds := fun _ _ => configInv_stepInvariant.keeps

/-- Settles O53: `capacityInv_framerBit` for a Bit, and an Error empties the block. -/
theorem stepKeepsCapacity : Obligations.StepKeepsCapacity := fun _ _ => capacityInv_stepInvariant.keeps

/-- Settles O54: `step_answers` gives the next state, and the three invariants hold of every reachable state. -/
theorem coreNeverStops : Obligations.CoreNeverStops := by
  refine ⟨fun s hs => ?_, fun s hr => ?_⟩
  · obtain ⟨t, ht⟩ := step_answers hs
    exact ⟨t, ht, inv_stepInvariant.keeps hs ht⟩
  · have hinv : Inv s := inv_stepInvariant.of_reachable hr
    exact ⟨hinv, configInv_stepInvariant.of_reachable hr, capacityInv_stepInvariant.of_reachable hr, step_answers hinv⟩

/-- Settles O28: EDGE is refused, or its rule ran, and `observeEdge_frame` says what that did. -/
theorem edgeHistoryAndConfigurationFrame : Obligations.EdgeHistoryAndConfigurationFrame := by
  intro t s u h
  rcases exec_next h with ⟨q, rfl⟩ | ⟨_, _, _, hi, -⟩ | ⟨_, _, _, hi, -⟩ | ⟨x, hi, -, w, hw, rfl⟩ |
    ⟨_, _, _, hi, -⟩ | ⟨_, _, _, hi, -⟩
  · exact ⟨rfl, rfl, rfl, rfl, rfl, rfl, rfl, rfl, [], .inr ⟨q, rfl⟩⟩
  · cases hi
  · cases hi
  · cases hi
    obtain ⟨hsess, hprof, hmode, hrate, hahc, hihc, hmargin, hinp, hhist⟩ := observeEdge_frame hw
    obtain ⟨evs, hout⟩ := observeEdge_out hw
    exact ⟨hsess, hprof, hmode, hrate, hahc, hihc, hmargin, hinp, evs, .inl ⟨respond_out hout, hhist⟩⟩
  · cases hi
  · cases hi

/-- Settles O42, which is `exec_framerFrame` field by field. -/
theorem framerItemsFrame : Obligations.FramerItemsFrame := by
  intro i s t hcfg hedge h
  have hf := exec_framerFrame hcfg hedge h
  exact ⟨hf.session, hf.profile, hf.mode, hf.rate, hf.ahc, hf.ihc, hf.margin, hf.e1v, hf.e1, hf.e2, hf.pk, hf.inp⟩

/-- Settles O55: a step without a reset idles, refuses a word, or runs an item, of which `exec_configuration` says what it
does to the configuration. -/
theorem configurationFixedForTheRun : Obligations.ConfigurationFixedForTheRun := by
  intro s t h hreset
  rcases step_cases s with ⟨-, hx⟩ | ⟨rest, hi, -⟩ | ⟨w, rest, hi, -⟩
  · rw [hx] at h; cases h
    exact .inl ⟨rfl, rfl, rfl, rfl, rfl, rfl, rfl⟩
  · exact absurd hi (hreset rest)
  · rcases step_item_next hi h with ⟨i, hd, hx⟩ | ⟨e, -, rfl⟩
    · rcases exec_configuration hx with hc | ⟨p, m, r, rfl, hu, hcfg⟩
      · exact .inl ⟨hc.session, hc.profile, hc.mode, hc.rate, hc.ahc, hc.ihc, hc.margin⟩
      · refine .inr ⟨hu, w, rest, p, m, r, hi, hd, ?_⟩
        rcases hcfg with ⟨hr, rfl⟩ | ⟨hr, rfl⟩
        · exact (if_pos hr).symm
        · exact (if_neg (Nat.not_lt.mpr hr)).symm
    · exact .inl ⟨rfl, rfl, rfl, rfl, rfl, rfl, rfl⟩

/-- Settles O13: the parts stand where `statusWord_parts` says, and each part is the code of its register. -/
theorem statusWordFields : Obligations.StatusWordFields := by
  intro s
  obtain ⟨hk, hc, he, hm, hp, hf⟩ := statusWord_parts (framerCode s.fs) (profileBit s.profile) (modeBit s.mode) s.cfgErr
    s.configured (sessionCode s.session)
  refine ⟨?_, hc, he, hm.trans (modeBit_eq _), hp.trans (profileBit_eq _), ?_, rfl⟩
  · exact (congrArg BitVec.toNat hk).trans (by cases s.session <;> rfl)
  · exact (congrArg BitVec.toNat hf).trans (by cases s.fs <;> rfl)

/-- Settles O50. No output has been delivered at reset, so no frame is counted either. -/
theorem resetMeetsInvariants : Obligations.ResetMeetsInvariants :=
  ⟨inv_stepInvariant.reset, configInv_stepInvariant.reset, capacityInv_stepInvariant.reset, by decide⟩

end Sys2Proof.Machine

/-!
PROOFS. The memory family (20_memory.md): what one step does to the streams, the core's only traffic (R55, R56, R58, R70).
-/

namespace Sys2Proof.Machine

/-- The word of an item runs that item. -/
theorem stepItem_of_decode_item {w : ItemWord} {i : Instr} (h : decode w = .item i) (s : State) :
    stepItem w s = exec i s := by
  simp [stepItem, h]

/-- A word that is no item leaves the input stream and is answered by its refusal alone (R84, R85). -/
theorem refuseWord_out (e : DecodeError) (s : State) :
    (refuseWord e s).inp = s.inp ∧
    ∃ (evs : List Event) (r : Response), (refuseWord e s).out = s.out ++ delivery evs r :=
  ⟨rfl, [], .refused (decodeReason e), respond_out_nil s _⟩

/-- Settles O10: the step takes the word out of the input first, and then neither an item (`exec_out`) nor the refusal of a
word that is no item (`refuseWord_out`) touches the input again. -/
theorem oneResponsePerItem : Obligations.OneResponsePerItem := by
  intro s t w rest hi h
  rcases step_item_next hi h with ⟨i, -, hx⟩ | ⟨e, -, rfl⟩
  · exact exec_out hx
  · exact refuseWord_out e { s with inp := rest }

/-- Settles O7: the step hands the word to the decoder, which gives only well-formed items. -/
theorem stepRunsTheDecodedItem : Obligations.StepRunsTheDecodedItem := by
  intro s w rest i hi hd
  exact ⟨(step_item hi).trans (stepItem_of_decode_item hd _), decode_wellFormed hd⟩

end Sys2Proof.Machine

/-!
PROOFS. The encoding family (30_encoding.md): decoder and encoder are inverse (R71 to R75, R85), the reserved encodings and
the order of the refusals (R79, R84, R85), the words of the output streams (R76 to R78), and the rows behind BIT and ERR (R83).
-/

namespace Sys2Proof

/-! ## The small operands and their bits -/

theorem profileOf_profileBit (p : Profile) : profileOf (profileBit p) = p := by cases p <;> rfl

theorem profileBit_profileOf (b : Bool) : profileBit (profileOf b) = b := by cases b <;> rfl

theorem modeOf_modeBit (m : Mode) : modeOf (modeBit m) = m := by cases m <;> rfl

theorem modeBit_modeOf (b : Bool) : modeBit (modeOf b) = b := by cases b <;> rfl

theorem subtypeOf_subtypeBit (u : ErrorSubtype) : subtypeOf (subtypeBit u) = u := by cases u <;> rfl

theorem subtypeBit_subtypeOf (b : Bool) : subtypeBit (subtypeOf b) = b := by cases b <;> rfl

theorem subtypeBit_eq (u : ErrorSubtype) : subtypeBit u = decide (u = .invalid) := by cases u <;> rfl

/-- The fields of an `arg` nibble with one operand (R74, R75). -/
theorem nibble1_fields (b : Bool) : (nibble1 b).getLsbD 0 = b ∧ (nibble1 b).extractLsb' 1 3 = 0#3 := by
  revert b; decide

/-- The fields of an `arg` nibble with two operands (R72). -/
theorem nibble2_fields (b1 b0 : Bool) :
    (nibble2 b1 b0).getLsbD 0 = b0 ∧ (nibble2 b1 b0).getLsbD 1 = b1 ∧ (nibble2 b1 b0).extractLsb' 2 2 = 0#2 := by
  revert b1 b0; decide

/-- An `arg` nibble whose reserved bits are 0 holds its one operand and nothing else. -/
theorem nibble1_of_reserved_zero {arg : BitVec 4} (h : arg.extractLsb' 1 3 = 0#3) : nibble1 (arg.getLsbD 0) = arg := by
  revert arg; decide

/-- An `arg` nibble whose reserved bits are 0 holds its two operands and nothing else. -/
theorem nibble2_of_reserved_zero {arg : BitVec 4} (h : arg.extractLsb' 2 2 = 0#2) :
    nibble2 (arg.getLsbD 1) (arg.getLsbD 0) = arg := by
  revert arg; decide

/-! ## Where the parts of `op` and `arg` stand in the word -/

theorem itemArg_getLsbD (w : ItemWord) {i : Nat} (h : i < 4) : (itemArg w).getLsbD i = w.getLsbD (128 + i) := by
  simp [itemArg, h]

theorem itemArg_extractLsb' (w : ItemWord) {start len : Nat} (h : start + len ≤ 4) :
    (itemArg w).extractLsb' start len = w.extractLsb' (128 + start) len := by
  apply BitVec.eq_of_getLsbD_eq
  intro i hi
  have hin : start + i < 4 := by omega
  simp [itemArg, hi, hin, Nat.add_assoc]

theorem extractLsb'_op_arg (w : ItemWord) : w.extractLsb' 128 8 = itemOp w ++ itemArg w :=
  (BitVec.extractLsb'_append_extractLsb'_eq_extractLsb' (start₁ := 128) (len₁ := 4) rfl).symm

theorem extractLsb'_op_reserved (w : ItemWord) : w.extractLsb' 129 7 = itemOp w ++ (itemArg w).extractLsb' 1 3 := by
  rw [itemArg_extractLsb' w (by decide)]
  exact (BitVec.extractLsb'_append_extractLsb'_eq_extractLsb' (start₁ := 129) (len₁ := 3) rfl).symm

/-! ## The decoder, opcode by opcode -/

/-- The opcodes of the four items, and the reserved ones (R83, R84). -/
theorem op_cases (op : BitVec 4) :
    op = 1#4 ∨ op = 2#4 ∨ op = 3#4 ∨ op = 4#4 ∨ (op.toNat = 0 ∨ 5 ≤ op.toNat) := by
  revert op; decide

theorem ne_op_of_reserved {op : BitVec 4} (h : op.toNat = 0 ∨ 5 ≤ op.toNat) :
    op ≠ 1#4 ∧ op ≠ 2#4 ∧ op ≠ 3#4 ∧ op ≠ 4#4 := by
  revert op; decide

theorem ifReservedZero_eq_item {z : Bool} {i j : Instr} : ifReservedZero z i = .item j ↔ z = true ∧ i = j := by
  cases z <;> simp [ifReservedZero]

theorem ifReservedZero_of_false {z : Bool} (h : z = false) (i : Instr) : ifReservedZero z i = .rejected .reservedField := by
  simp [ifReservedZero, h]

theorem decode_cfgOp {w : ItemWord} (h : itemOp w = 1#4) :
    decode w = ifReservedZero ((itemArg w).extractLsb' 2 2 == 0#2 && itemB w == 0#64)
      (.cfg (profileOf ((itemArg w).getLsbD 0)) (modeOf ((itemArg w).getLsbD 1)) (itemA w)) := by
  simp [decode, h]

theorem decode_edgeOp {w : ItemWord} (h : itemOp w = 2#4) :
    decode w = ifReservedZero (itemArg w == 0#4 && itemB w == 0#64) (.edge (itemA w)) := by
  simp [decode, h]

theorem decode_bitOp {w : ItemWord} (h : itemOp w = 3#4) :
    decode w = ifReservedZero ((itemArg w).extractLsb' 1 3 == 0#3)
      (.bit ((itemArg w).getLsbD 0) (itemA w) (itemB w)) := by
  simp [decode, h]

theorem decode_errOp {w : ItemWord} (h : itemOp w = 4#4) :
    decode w = ifReservedZero ((itemArg w).extractLsb' 1 3 == 0#3)
      (.err (subtypeOf ((itemArg w).getLsbD 0)) (itemA w) (itemB w)) := by
  simp [decode, h]

/-- R84: every opcode but the four of the items is reserved. -/
theorem decode_reservedOp {w : ItemWord} (h : (itemOp w).toNat = 0 ∨ 5 ≤ (itemOp w).toNat) :
    decode w = .rejected .reservedOpcode := by
  obtain ⟨h1, h2, h3, h4⟩ := ne_op_of_reserved h
  simp [decode, h1, h2, h3, h4]

/-! ## Decoding an encoded item -/

theorem decode_encodeBit (v : Bool) (ss es : Sample) : decode (encodeBit v ss es) = .item (.bit v ss es) := by
  obtain ⟨hv, hreserved⟩ := nibble1_fields v
  rw [encodeBit, decode_bitOp (itemOp_itemWord ..), itemArg_itemWord, itemA_itemWord, itemB_itemWord, hv, hreserved]
  rfl

theorem decode_encodeErr (u : ErrorSubtype) (ss es : Sample) : decode (encodeErr u ss es) = .item (.err u ss es) := by
  obtain ⟨hu, hreserved⟩ := nibble1_fields (subtypeBit u)
  rw [encodeErr, decode_errOp (itemOp_itemWord ..), itemArg_itemWord, itemA_itemWord, itemB_itemWord, hu, hreserved,
    subtypeOf_subtypeBit]
  rfl

theorem decode_encodeCfg (p : Profile) (m : Mode) (r : BitVec 64) : decode (encode (.cfg p m r)) = .item (.cfg p m r) := by
  obtain ⟨hp, hm, hreserved⟩ := nibble2_fields (modeBit m) (profileBit p)
  rw [encode, decode_cfgOp (itemOp_itemWord ..), itemArg_itemWord, itemA_itemWord, itemB_itemWord, hp, hm, hreserved,
    profileOf_profileBit, modeOf_modeBit]
  rfl

theorem decode_encodeEdge (t : Sample) : decode (encode (.edge t)) = .item (.edge t) := by
  rw [encode, decode_edgeOp (itemOp_itemWord ..), itemArg_itemWord, itemA_itemWord, itemB_itemWord]
  rfl

/-- The word of any instruction decodes to the item it is a case of (R83). -/
theorem decode_encode (i : Instr) : decode (encode i) = .item i.item := by
  cases i with
  | cfg p m r => exact decode_encodeCfg p m r
  | edge t => exact decode_encodeEdge t
  | err u ss es => exact decode_encodeErr u ss es
  | errAny u ss es => exact decode_encodeErr u ss es
  | _ => exact decode_encodeBit ..

/-- Settles O2: a well-formed instruction is its own item, and `decode_encode` gives the item of every instruction. -/
theorem decodeInvertsEncode : Obligations.DecodeInvertsEncode :=
  ⟨fun i hw => (decode_encode i).trans (congrArg Decoded.item (Machine.wellFormed_iff.mp hw)), decode_encode⟩

/-! ## Encoding a decoded word -/

/-- The encoder rebuilds every word that the decoder accepts, from its four parts (R85: no bit is ignored). -/
theorem encode_of_decode_item {w : ItemWord} {i : Instr} (h : decode w = .item i) : encode i = w := by
  refine Eq.trans ?_ (itemWord_parts w)
  rcases op_cases (itemOp w) with hop | hop | hop | hop | hop
  · rw [decode_cfgOp hop, ifReservedZero_eq_item, Bool.and_eq_true, beq_iff_eq, beq_iff_eq] at h
    obtain ⟨⟨harg, hb⟩, rfl⟩ := h
    rw [encode, modeBit_modeOf, profileBit_profileOf, nibble2_of_reserved_zero harg, hop, hb]
  · rw [decode_edgeOp hop, ifReservedZero_eq_item, Bool.and_eq_true, beq_iff_eq, beq_iff_eq] at h
    obtain ⟨⟨harg, hb⟩, rfl⟩ := h
    rw [encode, hop, harg, hb]
  · rw [decode_bitOp hop, ifReservedZero_eq_item, beq_iff_eq] at h
    obtain ⟨harg, rfl⟩ := h
    rw [encode, encodeBit, nibble1_of_reserved_zero harg, hop]
  · rw [decode_errOp hop, ifReservedZero_eq_item, beq_iff_eq] at h
    obtain ⟨harg, rfl⟩ := h
    rw [encode, encodeErr, subtypeBit_subtypeOf, nibble1_of_reserved_zero harg, hop]
  · rw [decode_reservedOp hop] at h
    cases h

/-- Settles O3: the decoder gives items only, and `encode_of_decode_item` rebuilds the word. -/
theorem everyItemWordHasOneReading : Obligations.EveryItemWordHasOneReading :=
  fun _ _ h => ⟨Machine.decode_wellFormed h, encode_of_decode_item h⟩

/-! ## Words with a reserved encoding -/

theorem decode_cfg_reserved {w : ItemWord} (hop : itemOp w = 1#4)
    (h : (itemArg w).extractLsb' 2 2 ≠ 0#2 ∨ itemB w ≠ 0#64) : decode w = .rejected .reservedField := by
  rw [decode_cfgOp hop]
  refine ifReservedZero_of_false ?_ _
  rcases h with h | h <;> simp [h]

theorem decode_edge_reserved {w : ItemWord} (hop : itemOp w = 2#4) (h : itemArg w ≠ 0#4 ∨ itemB w ≠ 0#64) :
    decode w = .rejected .reservedField := by
  rw [decode_edgeOp hop]
  refine ifReservedZero_of_false ?_ _
  rcases h with h | h <;> simp [h]

theorem decode_bit_reserved {w : ItemWord} (hop : itemOp w = 3#4) (h : (itemArg w).extractLsb' 1 3 ≠ 0#3) :
    decode w = .rejected .reservedField := by
  rw [decode_bitOp hop]
  exact ifReservedZero_of_false (by simp [h]) _

theorem decode_err_reserved {w : ItemWord} (hop : itemOp w = 4#4) (h : (itemArg w).extractLsb' 1 3 ≠ 0#3) :
    decode w = .rejected .reservedField := by
  rw [decode_errOp hop]
  exact ifReservedZero_of_false (by simp [h]) _

/-- Settles O4: each range is `op`, `arg`, a part of the two, or an operand, and the parts of an encoded word are those it
was put together from. -/
theorem fieldsStandInTheirBits : Obligations.FieldsStandInTheirBits := by
  refine ⟨fun p m r => ?_, fun t => ?_, fun v ss es => ?_, fun u ss es => ?_⟩
  · obtain ⟨hp, hm, hreserved⟩ := nibble2_fields (modeBit m) (profileBit p)
    have harg : itemArg (encode (.cfg p m r)) = nibble2 (modeBit m) (profileBit p) := itemArg_itemWord ..
    refine ⟨itemOp_itemWord .., ?_, ?_, ?_, itemA_itemWord .., itemB_itemWord ..⟩
    · rw [← itemArg_getLsbD _ (i := 0) (by decide), harg, hp, Machine.profileBit_eq]
    · rw [← itemArg_getLsbD _ (i := 1) (by decide), harg, hm, Machine.modeBit_eq]
    · rw [← itemArg_extractLsb' _ (start := 2) (by decide), harg, hreserved]
  · refine ⟨?_, itemA_itemWord .., itemB_itemWord ..⟩
    rw [extractLsb'_op_arg, encode, itemOp_itemWord, itemArg_itemWord]
    rfl
  · obtain ⟨hv, hreserved⟩ := nibble1_fields v
    have harg : itemArg (encode (.bit v ss es)) = nibble1 v := itemArg_itemWord ..
    refine ⟨?_, ?_, itemA_itemWord .., itemB_itemWord ..⟩
    · rw [extractLsb'_op_reserved, harg, hreserved, encode, encodeBit, itemOp_itemWord]
      rfl
    · rw [← itemArg_getLsbD _ (i := 0) (by decide), harg, hv]
  · obtain ⟨hu, hreserved⟩ := nibble1_fields (subtypeBit u)
    have harg : itemArg (encode (.err u ss es)) = nibble1 (subtypeBit u) := itemArg_itemWord ..
    refine ⟨?_, ?_, itemA_itemWord .., itemB_itemWord ..⟩
    · rw [extractLsb'_op_reserved, harg, hreserved, encode, encodeErr, itemOp_itemWord]
      rfl
    · rw [← itemArg_getLsbD _ (i := 0) (by decide), harg, hu, subtypeBit_eq]

/-- Settles O1, by evaluating the decoder on the eight words. -/
theorem printedWordsDecode : Obligations.PrintedWordsDecode :=
  ⟨by decide, by decide, by decide, by decide, by decide, by decide, by decide, by decide⟩

end Sys2Proof

namespace Sys2Proof.Machine

/-! ## Refused words and refused items, step by step -/

/-- A word that is no item: the step takes it and delivers its refusal alone (R84, R85). -/
theorem step_rejected {s : State} {w : ItemWord} {rest : List Input} {e : DecodeError} (hi : s.inp = .item w :: rest)
    (hd : decode w = .rejected e) :
    step s = .next { s with inp := rest, out := s.out ++ delivery [] (.refused (decodeReason e)) } := by
  rw [step_item hi, stepItem, hd]
  rfl

/-- An item that the core refuses: the step takes it and delivers its refusal alone (R7). -/
theorem step_refused {s : State} {w : ItemWord} {rest : List Input} {i : Instr} {q : RefuseReason}
    (hi : s.inp = .item w :: rest) (hd : decode w = .item i)
    (hx : exec i { s with inp := rest } = .next (({ s with inp := rest } : State).respond (.refused q))) :
    step s = .next { s with inp := rest, out := s.out ++ delivery [] (.refused q) } := by
  rw [step_item hi, stepItem_of_decode_item hd, hx]
  rfl

/-- The kind of item that an instruction is or is a case of (R83): its legality tests are those of that kind. -/
def kindOf : Instr → ItemKind
  | .cfg _ _ _ => .cfg
  | .edge _ => .edge
  | .err _ _ _ | .errAny _ _ _ => .err
  | _ => .bit

theorem runItem_of_illegal {k : ItemKind} {rule : State → RuleResult} {s : State} {q : RefuseReason}
    (h : itemRefusal k s = some q) : runItem k rule s = .next (s.respond (.refused q)) := by
  simp [runItem, h]

theorem runRow_of_illegal {row : FramerState} {rule : State → RuleResult} {s : State} {q : RefuseReason}
    (h : itemRefusal .bit s = some q) : runRow row rule s = .next (s.respond (.refused q)) := by
  simp [runRow, h]

theorem execCfg_of_illegal {p : Profile} {m : Mode} {r : BitVec 64} {s : State} {q : RefuseReason}
    (h : itemRefusal .cfg s = some q) : execCfg p m r s = .next (s.respond (.refused q)) := by
  simp [execCfg, h]

/-- The legality tests come before the rule of every instruction (R200): where they refuse, nothing else is done. -/
theorem exec_of_illegal {i : Instr} {s : State} {q : RefuseReason} (h : itemRefusal (kindOf i) s = some q) :
    exec i s = .next (s.respond (.refused q)) := by
  cases i with
  | cfg p m r => exact execCfg_of_illegal h
  | edge t => exact runItem_of_illegal h
  | bit v ss es => exact runItem_of_illegal h
  | err u ss es => exact runItem_of_illegal (k := .err) (rule := fun t => .next (framerError u ss es t)) h
  | errAny u ss es => exact runItem_of_illegal (k := .err) (rule := fun t => .next (framerError u ss es t)) h
  | _ => exact runRow_of_illegal h

theorem kindOf_eq_cfg {i : Instr} : kindOf i = .cfg ↔ ∃ p m r, i = .cfg p m r := by
  cases i <;> simp [kindOf]

theorem itemRefusal_unconfigured {s : State} {k : ItemKind} (hs : s.session = .unconfigured) (hk : k ≠ .cfg) :
    itemRefusal k s = some .notConfigured := by
  cases k <;> simp [itemRefusal, hs] at hk ⊢

theorem itemRefusal_cfg_running {s : State} (hs : s.session = .running) :
    itemRefusal .cfg s = some .alreadyConfigured := by
  simp [itemRefusal, hs]

theorem itemRefusal_edge_wrongMode {s : State} (hs : s.session = .running) (hm : s.mode = .pre) :
    itemRefusal .edge s = some .wrongMode := by
  simp [itemRefusal, hs, hm]

theorem itemRefusal_bit_wrongMode {s : State} (hs : s.session = .running) (hm : s.mode = .raw) :
    itemRefusal .bit s = some .wrongMode := by
  simp [itemRefusal, hs, hm]

/-! ## A full block (R163) -/

theorem framerBit_full {cap : Option Nat} {ss es : Sample} {s : State} (hf : s.fs = .frameStop)
    (hb : blockFull cap s.bb.length = true) : framerBit cap true ss es s = .refused .blockFull := by
  simp [framerBit, hf, ruleFrameStop1, hb]

theorem observeEdge_inactivePair {cap : Option Nat} {t : Sample} {s : State} (he : s.e1v = true)
    (hk : edgeKind t s = .inactive) (hp : s.pk = .inactive) :
    observeEdge cap t s = pairComplete cap true t s := by
  simp [observeEdge, he, hk, hp]

/-- EDGE hands its Bit to BitFramer with the framer state and the block as they are (R128). -/
theorem pairComplete_full {cap : Option Nat} {t : Sample} {s : State} (hf : s.fs = .frameStop)
    (hb : blockFull cap s.bb.length = true) : pairComplete cap true t s = .refused .blockFull :=
  framerBit_full (s := ((s.setPending .none).advanceEdges t).emit _) hf hb

/-- A stop bit that the full block cannot take is refused. -/
theorem exec_bit_blockFull {ss es : Sample} {s : State} (hr : ReadyForBits s) (hf : s.fs = .frameStop)
    (hb : blockFull Config.blockCap s.bb.length = true) :
    exec (.bit true ss es) s = .next (s.respond (.refused .blockFull)) := by
  change runItem .bit _ s = _
  rw [runItem_of_legal (itemRefusal_bit_none.mpr hr), framerBit_full hf hb]
  rfl

/-- An edge that completes such a stop bit is refused, with the edge history and the pending half-cycle as before it. -/
theorem exec_edge_blockFull {t : Sample} {s : State} (hr : ReadyForEdges s) (he : s.e1v = true)
    (hk : edgeKind t s = .inactive) (hp : s.pk = .inactive) (hf : s.fs = .frameStop)
    (hb : blockFull Config.blockCap s.bb.length = true) :
    exec (.edge t) s = .next (s.respond (.refused .blockFull)) := by
  change runItem .edge _ s = _
  rw [runItem_of_legal (itemRefusal_edge_none.mpr hr), observeEdge_inactivePair he hk hp,
    pairComplete_full hf hb]
  rfl

/-! ## The words of the output streams (R76, R78) -/

theorem valField_toNat {n : Nat} (h : n < 2 ^ 64) : (valField n).toNat = n := by
  rw [valField, if_pos h, BitVec.toNat_ofNat, Nat.mod_eq_of_lt h]

/-- The four parts of an event word, for every value. -/
theorem event_word_parts (e : Event) :
    e.word.extractLsb' 192 8 = e.kind.code ∧ e.word.extractLsb' 128 64 = valField e.val ∧
    e.word.extractLsb' 64 64 = e.ss ∧ e.word.extractLsb' 0 64 = e.es := by
  unfold Event.word
  simp only [BitVec.extractLsb'_append_eq_of_le, Nat.reduceLeDiff, Nat.reduceSub, BitVec.extractLsb'_append_eq_right,
    BitVec.extractLsb'_eq_self, and_self]

/-- The reasons are numbered 1 to 7 (R79). -/
theorem refuseReason_code_range (q : RefuseReason) : q.code ≠ 0#4 ∧ q.code.toNat < 8 := by
  cases q <;> decide

/-! ## The obligations -/

/-- Settles O5: the decoder rejects the word (`decode_reservedOp`), whatever the state. -/
theorem reservedOpcodeRefused : Obligations.ReservedOpcodeRefused :=
  fun _ _ _ hi h => step_rejected hi (decode_reservedOp h)

/-- Settles O6: for each of the four items the decoder rejects the word, whatever the state. -/
theorem reservedFieldRefused : Obligations.ReservedFieldRefused := by
  intro s w rest hi h
  refine step_rejected (e := .reservedField) hi ?_
  rcases h with ⟨hop, h⟩ | ⟨hop, h⟩ | ⟨hop, h⟩ | ⟨hop, h⟩
  · rw [← itemArg_extractLsb' w (start := 2) (by decide)] at h
    exact decode_cfg_reserved hop h
  · exact decode_edge_reserved hop h
  · rw [← itemArg_extractLsb' w (start := 1) (by decide)] at h
    exact decode_bit_reserved hop h
  · rw [← itemArg_extractLsb' w (start := 1) (by decide)] at h
    exact decode_err_reserved hop h

/-- Settles O12: a rejected word by `step_rejected`, the legality tests by `exec_of_illegal`, and a full block by the rule of
the stop bit, which BIT and EDGE share. -/
theorem refusalPriority : Obligations.RefusalPriority := by
  refine ⟨⟨rfl, rfl, rfl, rfl, rfl, rfl, rfl⟩, fun s w rest hi => ?_⟩
  intro refusedFor
  cases hd : decode w with
  | rejected e => cases e <;> exact step_rejected hi hd
  | item i =>
    have illegal : ∀ q, itemRefusal (kindOf i) s = some q → refusedFor q :=
      fun q hq => step_refused hi hd (exec_of_illegal hq)
    have full : ∀ c, Config.blockCap = some c → s.bb.length = c → blockFull Config.blockCap s.bb.length = true :=
      fun c hc hlen => hc ▸ (blockFull_some c _).mpr hlen
    refine ⟨fun hs => ?_, fun hs hcfg => ?_, ?_, ?_, ?_, ?_, fun c hc hlen hf hs => ⟨?_, ?_⟩⟩
    · exact illegal _ (itemRefusal_halted hs _)
    · refine illegal _ (itemRefusal_unconfigured hs fun hk => ?_)
      obtain ⟨p, m, r, rfl⟩ := kindOf_eq_cfg.mp hk
      exact hcfg p m r rfl
    · rintro hs ⟨p, m, r, rfl⟩
      exact illegal _ (itemRefusal_cfg_running hs)
    · rintro hs hm ⟨t, rfl⟩
      exact illegal _ (itemRefusal_edge_wrongMode hs hm)
    · rintro hs hm ⟨v, ss, es, rfl⟩
      exact illegal _ (itemRefusal_bit_wrongMode hs hm)
    · rintro hs hm ⟨u, ss, es, rfl⟩
      exact illegal _ ((itemRefusal_err_eq_bit s).trans (itemRefusal_bit_wrongMode hs hm))
    · rintro hm ⟨ss, es, rfl⟩
      exact step_refused hi hd (exec_bit_blockFull ⟨hs, hm⟩ hf (full c hc hlen))
    · rintro hm t rfl he hp hk
      exact step_refused hi hd (exec_edge_blockFull ⟨hs, hm⟩ he hk hp hf (full c hc hlen))

/-- Settles O14: `event_word_parts`, with the value read back where it fits its field, and the table of codes evaluated. -/
theorem eventWordFields : Obligations.EventWordFields := by
  refine ⟨fun e hval => ?_, by decide⟩
  obtain ⟨hcode, hv, hss, hes⟩ := event_word_parts e
  exact ⟨hcode, by rw [hv, valField_toNat hval], hss, hes⟩

/-- Settles O15: the response word is outcome and reason side by side. -/
theorem responseWordFields : Obligations.ResponseWordFields :=
  ⟨rfl, rfl, fun q => ⟨BitVec.extractLsb'_append_eq_left, BitVec.extractLsb'_append_eq_right, refuseReason_code_range q⟩⟩

/-- The row that the framer state selects answers as BIT does, when its rule is the one that BitFramer's dispatch takes. -/
theorem execBit_eq_runRow {row : FramerState} {rule : State → RuleResult} {v : Bool} {ss es : Sample} {s : State}
    (hf : s.fs = row) (hrule : framerBit Config.blockCap v ss es s = rule s) :
    exec (.bit v ss es) s = runRow row rule s := by
  rw [runRow_selected hf]
  change runItem .bit _ s = _
  simp only [runItem, hrule]

/-- Settles O29: `execBit_eq_runRow` for each of the ten rows of BIT; ERR and `ERR.any` have one meaning. -/
theorem itemsRunTheirRows : Obligations.ItemsRunTheirRows := by
  refine ⟨fun s ss es => ⟨fun hf => ⟨?_, ?_⟩, fun hf => ⟨?_, ?_⟩, fun hf => ⟨?_, ?_⟩, fun hf => ⟨?_, ?_⟩,
    fun hf => ⟨?_, ?_⟩⟩, fun _ _ _ _ => rfl⟩
  all_goals exact execBit_eq_runRow hf (by simp only [framerBit, hf])

end Sys2Proof.Machine

/-!
PROOFS. The configuration and comparator family (40_config_and_comparator.md): what CFG does in each session state (R110 to
R112, R190, R208), the thresholds (R102 to R104), and what `classifyInterval` answers (R105 to R107, R109).
-/

namespace Sys2Proof.Machine

/-! ## The thresholds as numbers (R102) -/

theorem threshold_active_toNat (p : Profile) (rate : BitVec 64) :
    (threshold (tenthsActive p) rate).toNat = rate.toNat * tenthsActive p / 10000000 :=
  threshold_toNat _ (by cases p <;> decide) rate

theorem threshold_inactive_toNat (p : Profile) (rate : BitVec 64) :
    (threshold (tenthsInactive p) rate).toNat = rate.toNat * tenthsInactive p / 10000000 :=
  threshold_toNat _ (by cases p <;> decide) rate

theorem threshold_margin_toNat (p : Profile) (rate : BitVec 64) :
    (threshold (tenthsMargin p) rate).toNat = rate.toNat * tenthsMargin p / 10000000 :=
  threshold_toNat _ (by cases p <;> decide) rate

/-- `M10` is half of `A10`, and halving after the division gives the same quotient (R104). -/
theorem threshold_margin_eq_half (p : Profile) (rate : BitVec 64) :
    (threshold (tenthsMargin p) rate).toNat = (threshold (tenthsActive p) rate).toNat / 2 := by
  rw [threshold_margin_toNat, threshold_active_toNat]
  cases p <;> simp only [tenthsMargin, tenthsActive] <;> omega

/-- `I10` is at least twice `A10`. -/
theorem two_threshold_active_le_inactive (p : Profile) (rate : BitVec 64) :
    2 * (threshold (tenthsActive p) rate).toNat ≤ (threshold (tenthsInactive p) rate).toNat := by
  rw [threshold_active_toNat, threshold_inactive_toNat]
  cases p <;> simp only [tenthsInactive, tenthsActive] <;> omega

/-- From `MIN_RATE` up an active half-cycle has at least one tick. -/
theorem one_le_threshold_active {p : Profile} {rate : BitVec 64} (h : 16000 ≤ rate.toNat) :
    1 ≤ (threshold (tenthsActive p) rate).toNat := by
  rw [threshold_active_toNat]
  cases p <;> simp only [tenthsActive] <;> omega

/-- From `MIN_RATE` up the blaster has a margin of at least one tick, and smartdevice from 17 700 up (R104, fact 3). -/
theorem threshold_margin_eq_zero_iff {p : Profile} {rate : BitVec 64} (h : 16000 ≤ rate.toNat) :
    (threshold (tenthsMargin p) rate).toNat = 0 ↔ p = .smartdevice ∧ rate.toNat ≤ 17699 := by
  rw [threshold_margin_toNat]
  cases p with
  | blaster => simp only [tenthsMargin, reduceCtorEq, false_and, iff_false]; omega
  | smartdevice => simp only [tenthsMargin, true_and]; omega

/-! ## `classifyInterval` -/

theorem inWindow_iff {ref margin : BitVec 64} {n : Int} :
    inWindow ref margin n = true ↔
      (ref.toNat : Int) - margin.toNat ≤ n ∧ n < (ref.toNat : Int) + margin.toNat := by
  simp [inWindow]

/-- A window of no margin is empty, because it is half-open. -/
theorem inWindow_of_margin_zero {ref margin : BitVec 64} {n : Int} (h : margin.toNat = 0) :
    inWindow ref margin n = false := by
  rw [Bool.eq_false_iff, Ne, inWindow_iff]
  omega

/-- A window of any margin holds its own reference. -/
theorem inWindow_self {ref margin : BitVec 64} (h : margin.toNat ≠ 0) : inWindow ref margin ref.toNat = true := by
  rw [inWindow_iff]
  omega

theorem classifyInterval_eq_inactive {a i g : BitVec 64} {n : Int} :
    classifyInterval a i g n = .inactive ↔ inWindow i g n = true := by
  cases hi : inWindow i g n <;> cases ha : inWindow a g n <;> simp [classifyInterval, hi, ha]

/-- The `Inactive` test comes first (R107). -/
theorem classifyInterval_eq_active {a i g : BitVec 64} {n : Int} :
    classifyInterval a i g n = .active ↔ inWindow a g n = true ∧ ¬ inWindow i g n = true := by
  cases hi : inWindow i g n <;> cases ha : inWindow a g n <;> simp [classifyInterval, hi, ha]

theorem classifyInterval_eq_error {a i g : BitVec 64} {n : Int} :
    classifyInterval a i g n = .error ↔ ¬ inWindow a g n = true ∧ ¬ inWindow i g n = true := by
  cases hi : inWindow i g n <;> cases ha : inWindow a g n <;> simp [classifyInterval, hi, ha]

/-! ## The two windows of one profile and rate (R104) -/

/-- The active window ends at or below the start of the inactive one. -/
theorem active_window_le_inactive_window (p : Profile) (rate : BitVec 64) :
    ((threshold (tenthsActive p) rate).toNat : Int) + (threshold (tenthsMargin p) rate).toNat ≤
      ((threshold (tenthsInactive p) rate).toNat : Int) - (threshold (tenthsMargin p) rate).toNat := by
  have hhalf := threshold_margin_eq_half p rate
  have htwice := two_threshold_active_le_inactive p rate
  omega

/-- So no length is in both, and the order of the two tests does not matter to a configured session. -/
theorem not_inactive_of_inWindow_active {p : Profile} {rate : BitVec 64} {n : Int}
    (h : inWindow (threshold (tenthsActive p) rate) (threshold (tenthsMargin p) rate) n = true) :
    ¬ inWindow (threshold (tenthsInactive p) rate) (threshold (tenthsMargin p) rate) n = true := by
  have hle := active_window_le_inactive_window p rate
  rw [inWindow_iff] at h ⊢
  omega

/-- At a legal rate the active window starts above 0. -/
theorem one_le_active_window_start {p : Profile} {rate : BitVec 64} (h : 16000 ≤ rate.toNat) :
    1 ≤ ((threshold (tenthsActive p) rate).toNat : Int) - (threshold (tenthsMargin p) rate).toNat := by
  have hhalf := threshold_margin_eq_half p rate
  have hpos := one_le_threshold_active (p := p) h
  omega

/-- At a legal rate no half-cycle of length 0 or less is classified: both windows start above 0. -/
theorem classifyInterval_of_nonpos {p : Profile} {rate : BitVec 64} (h : 16000 ≤ rate.toNat) {n : Int} (hn : n ≤ 0) :
    classifyInterval (threshold (tenthsActive p) rate) (threshold (tenthsInactive p) rate)
      (threshold (tenthsMargin p) rate) n = .error := by
  have hstart := one_le_active_window_start (p := p) h
  have hle := active_window_le_inactive_window p rate
  rw [classifyInterval_eq_error, inWindow_iff, inWindow_iff]
  omega

/-- Every length is an Error exactly where there is no margin: with one, the active reference itself is Active. -/
theorem classifyInterval_always_error_iff (p : Profile) (rate : BitVec 64) :
    (∀ n : Int, classifyInterval (threshold (tenthsActive p) rate) (threshold (tenthsInactive p) rate)
      (threshold (tenthsMargin p) rate) n = .error) ↔ (threshold (tenthsMargin p) rate).toNat = 0 := by
  constructor
  · intro herror
    by_contra hmargin
    exact (classifyInterval_eq_error.mp (herror _)).1 (inWindow_self hmargin)
  · intro hmargin n
    simp [classifyInterval_eq_error, inWindow_of_margin_zero hmargin]

/-! ## CFG in an unconfigured session (R110, R111) -/

theorem exec_cfg_below_minRate {p : Profile} {m : Mode} {r : BitVec 64} {s : State} (hs : s.session = .unconfigured)
    (hr : r.toNat < 16000) : exec (.cfg p m r) s = .next (raiseConfigurationError s) := by
  change execCfg p m r s = _
  simp only [execCfg, itemRefusal_cfg_none.mpr hs, if_pos (show r.toNat < minRate from hr)]

theorem exec_cfg_of_legal_rate {p : Profile} {m : Mode} {r : BitVec 64} {s : State} (hs : s.session = .unconfigured)
    (hr : 16000 ≤ r.toNat) : exec (.cfg p m r) s = .next ((configure p m r s).respond .ok) := by
  change execCfg p m r s = _
  simp only [execCfg, itemRefusal_cfg_none.mpr hs, if_neg (show ¬ r.toNat < minRate from Nat.not_lt.mpr hr)]

/-! ## Where a FAULT comes from (R190) -/

/-- The two kinds of answer of an instruction: it is the CFG that raises ConfigurationError, or its delivery ends in a
response that is no FAULT. -/
theorem exec_faults_or_answers {i : Instr} {s t : State} (h : exec i s = .next t) :
    ((s.session = .unconfigured ∧ ∃ p m r, i = .cfg p m r ∧ r.toNat < 16000) ∧ t = raiseConfigurationError s) ∨
    (∃ (evs : List Event) (r : Response), (∀ c, r ≠ .fault c) ∧ t.out = s.out ++ delivery evs r) := by
  rcases exec_next h with ⟨q, rfl⟩ | ⟨p, m, r, hi, hs, hr, ht⟩ | ⟨p, m, r, -, -, -, rfl⟩ | ⟨x, -, -, u, hu, rfl⟩ |
    ⟨v, ss, es, -, -, u, hu, rfl⟩ | ⟨e, ss, es, -, -, rfl⟩
  · exact .inr ⟨[], .refused q, fun _ => nofun, respond_out_nil s _⟩
  · exact .inl ⟨⟨hs, p, m, r, hi, hr⟩, ht⟩
  · exact .inr ⟨[], .ok, fun _ => nofun, respond_out_nil _ _⟩
  · obtain ⟨evs, he⟩ := observeEdge_out hu
    exact .inr ⟨evs, .ok, fun _ => nofun, respond_out he⟩
  · obtain ⟨evs, he⟩ := framerBit_out hu
    exact .inr ⟨evs, .ok, fun _ => nofun, respond_out he⟩
  · exact .inr ⟨[⟨.decodeAbort, ss, es, subtypeVal e⟩], .ok, fun _ => nofun, by simp [delivery]⟩

/-- An instruction whose delivery ends in a FAULT is the CFG that raises ConfigurationError, and did nothing else. -/
theorem exec_faulted {i : Instr} {s t : State} {evs : List Event} {c : Cause} (h : exec i s = .next t)
    (ho : t.out = s.out ++ delivery evs (.fault c)) :
    (s.session = .unconfigured ∧ ∃ p m r, i = .cfg p m r ∧ r.toNat < 16000) ∧ t = raiseConfigurationError s ∧
    evs = [] ∧ c = .configurationError := by
  rcases exec_faults_or_answers h with ⟨hcfg, rfl⟩ | ⟨evs', r, hr, ho'⟩
  · obtain ⟨hevs, hresponse⟩ := delivery_inj (ho.symm.trans (respond_out_nil s (.fault .configurationError)))
    exact ⟨hcfg, rfl, hevs, Response.fault.inj hresponse⟩
  · exact absurd (delivery_inj (ho'.symm.trans ho)).2 (hr c)

/-! ## A halted session (R112, R208) -/

/-- A halted session takes a word and answers it by a refusal alone, by `Halted` where the word is an item. -/
theorem step_item_halted {s : State} {w : ItemWord} {rest : List Input} (hs : s.session = .halted)
    (hi : s.inp = .item w :: rest) :
    ∃ q, step s = .next { s with inp := rest, out := s.out ++ delivery [] (.refused q) } ∧
      ((∃ i, decode w = .item i) → q = .halted) := by
  cases hd : decode w with
  | item i => exact ⟨.halted, step_refused hi hd (exec_of_illegal (itemRefusal_halted hs _)), fun _ => rfl⟩
  | rejected e => exact ⟨decodeReason e, step_rejected hi hd, nofun⟩

/-! ## The obligations -/

/-- Settles O16: the legality tests refuse CFG outside an unconfigured session, and inside one the rate decides; the values
written are the thresholds as numbers. -/
theorem cfgConfigures : Obligations.CfgConfigures := by
  refine fun p m r s => ⟨fun hs => ?_, fun hs => ?_, fun hs hr => ?_, fun hs hr => ?_⟩
  · exact exec_of_illegal (itemRefusal_halted hs _)
  · exact exec_of_illegal (itemRefusal_cfg_running hs)
  · exact exec_cfg_below_minRate hs hr
  · refine ⟨_, _, _, ?_, ?_, ?_, exec_cfg_of_legal_rate hs hr⟩
    · exact (threshold_active_toNat p r).trans (by cases p <;> rfl)
    · exact (threshold_inactive_toNat p r).trans (by cases p <;> rfl)
    · exact (threshold_margin_toNat p r).trans (by cases p <;> rfl)

/-- Settles O17: `exec_faulted` says where a FAULT comes from and what it did, `exec_cfg_below_minRate` that it does come. -/
theorem configurationErrorExactly : Obligations.ConfigurationErrorExactly := by
  refine ⟨fun i s => ⟨?_, ?_⟩, fun i s t evs c h ho => ?_, rfl⟩
  · rintro ⟨t, evs, c, h, ho⟩
    exact (exec_faulted h ho).1
  · rintro ⟨hs, p, m, r, rfl, hr⟩
    exact ⟨raiseConfigurationError s, [], .configurationError, exec_cfg_below_minRate hs hr, respond_out_nil s _⟩
  · obtain ⟨-, rfl, hevs, hc⟩ := exec_faulted h ho
    exact ⟨hc, hevs, rfl⟩

/-- Settles O19: each fact is a lemma above about the thresholds of a legal rate. -/
theorem windowFacts : Obligations.WindowFacts := fun p rate h =>
  ⟨⟨threshold_margin_eq_half p rate, one_le_active_window_start h⟩, fun _ => classifyInterval_of_nonpos h,
    active_window_le_inactive_window p rate, threshold_margin_eq_zero_iff h,
    (classifyInterval_always_error_iff p rate).trans (threshold_margin_eq_zero_iff h)⟩

/-- Settles O21: a configured session holds the thresholds of its profile and rate, whose windows are disjoint. -/
theorem comparatorPromise : Obligations.ComparatorPromise := by
  intro s n hrun hconfig
  obtain ⟨-, hahc, hihc, hmargin⟩ := hconfig hrun
  rw [hahc, hihc, hmargin]
  simp only [← inWindow_iff]
  exact ⟨fun hactive => classifyInterval_eq_active.mpr ⟨hactive, not_inactive_of_inWindow_active hactive⟩,
    classifyInterval_eq_inactive.mpr, fun hactive hinactive => classifyInterval_eq_error.mpr ⟨hactive, hinactive⟩⟩

/-- Settles O56: a step without a reset idles or takes one word, which `step_item_halted` says is refused. -/
theorem haltedRefusesEverything : Obligations.HaltedRefusesEverything := by
  intro s t hs h hreset
  rcases step_cases s with ⟨hi, hx⟩ | ⟨rest, hi, -⟩ | ⟨w, rest, hi, -⟩
  · rw [hx] at h
    cases h
    exact ⟨rfl, fun w rest hw => absurd (hi.symm.trans hw) nofun⟩
  · exact absurd hi (hreset rest)
  · obtain ⟨q, hx, hq⟩ := step_item_halted hs hi
    rw [hx] at h
    cases h
    refine ⟨rfl, fun w' rest' hi' => ?_⟩
    cases hi.symm.trans hi'
    exact ⟨q, rfl, hq⟩

/-- Settles O18, by evaluating the quotients. -/
theorem thresholdTable : Obligations.ThresholdTable := by
  unfold Obligations.ThresholdTable
  decide

/-- Settles O20: the three answers of `classifyInterval`, with the windows written out. -/
theorem classifyIntervalWindows : Obligations.ClassifyIntervalWindows := by
  intro a i g n inactive active
  have hactive : inWindow a g n = true ↔ active := inWindow_iff
  have hinactive : inWindow i g n = true ↔ inactive := inWindow_iff
  rw [← hactive, ← hinactive]
  exact ⟨classifyInterval_eq_inactive, classifyInterval_eq_active, classifyInterval_eq_error⟩

end Sys2Proof.Machine

/-!
PROOFS. The edge classifier family (41_edge_classifier.md): what EDGE does in a running raw-timing session, case by case of
R121 (R122 to R125, R130), and how a matching pair hands its Bit to BitFramer (R128).
-/

namespace Sys2Proof.Machine

/-! ## EDGE and BIT where they are legal -/

theorem exec_edge_of_ready {t : Sample} {s : State} (hr : ReadyForEdges s) :
    exec (.edge t) s = complete s (observeEdge Config.blockCap t s) :=
  runItem_of_legal (itemRefusal_edge_none.mpr hr)

theorem exec_bit_of_ready {v : Bool} {ss es : Sample} {s : State} (hr : ReadyForBits s) :
    exec (.bit v ss es) s = complete s (framerBit Config.blockCap v ss es s) :=
  runItem_of_legal (itemRefusal_bit_none.mpr hr)

/-- A BIT answered OK: BitFramer took the Bit, and the events delivered are BitFramer's. -/
theorem framerBit_of_exec_bit_ok {v : Bool} {ss es : Sample} {s u : State} {evs : List Event} (hr : ReadyForBits s)
    (h : exec (.bit v ss es) s = .next u) (ho : u.out = s.out ++ delivery evs .ok) :
    ∃ w, framerBit Config.blockCap v ss es s = .next w ∧ w.out = s.out ++ evs.map .event ∧ u = w.respond .ok := by
  rw [exec_bit_of_ready hr] at h
  rcases complete_next h with ⟨w, hw, rfl⟩ | ⟨q, -, rfl⟩
  · obtain ⟨evs', hw'⟩ := framerBit_out hw
    obtain ⟨rfl, -⟩ := delivery_inj ((respond_out hw').symm.trans ho)
    exact ⟨w, hw, hw', rfl⟩
  · exact absurd (delivery_inj ((respond_out_nil s _).symm.trans ho)).2 nofun

/-- A BIT answered REFUSED in a state where BIT is legal: BitFramer refused the Bit, for the reason delivered. -/
theorem framerBit_of_exec_bit_refused {v : Bool} {ss es : Sample} {s u : State} {evs : List Event} {q : RefuseReason}
    (hr : ReadyForBits s) (h : exec (.bit v ss es) s = .next u) (ho : u.out = s.out ++ delivery evs (.refused q)) :
    framerBit Config.blockCap v ss es s = .refused q := by
  rw [exec_bit_of_ready hr] at h
  rcases complete_next h with ⟨w, hw, rfl⟩ | ⟨q', hq', rfl⟩
  · obtain ⟨evs', hw'⟩ := framerBit_out hw
    exact absurd (delivery_inj ((respond_out hw').symm.trans ho)).2 nofun
  · obtain ⟨-, hq⟩ := delivery_inj ((respond_out_nil s _).symm.trans ho)
    rw [hq', Response.refused.inj hq]

/-! ## The cases of R121

A half-cycle that is no Error is named by the Bit `v` that a pair of its kind stands for (R124): `Active` for 0 and
`Inactive` for 1. -/

/-- The kind of the half-cycles that make up the Bit `v`. -/
def halfCycleOfBit (v : Bool) : HalfCycleKind := if v then .inactive else .active

/-- The value of `PK` that waits for the second half of the Bit `v`. -/
def pendingOfBit (v : Bool) : PendingKind := if v then .inactive else .active

theorem observeEdge_first {cap : Option Nat} {t : Sample} {s : State} (he : s.e1v = false) :
    observeEdge cap t s = firstEdge t s := by
  simp [observeEdge, he]

theorem observeEdge_error {cap : Option Nat} {t : Sample} {s : State} (he : s.e1v = true)
    (hk : edgeKind t s = .error) : observeEdge cap t s = errorHalfCycle t s := by
  simp [observeEdge, he, hk]

theorem observeEdge_pair {cap : Option Nat} {t : Sample} {s : State} {v : Bool} (he : s.e1v = true)
    (hk : edgeKind t s = halfCycleOfBit v) (hp : s.pk = pendingOfBit v) :
    observeEdge cap t s = pairComplete cap v t s := by
  cases v with
  | false => simp [observeEdge, he, hk, hp, halfCycleOfBit, pendingOfBit]
  | true => exact observeEdge_inactivePair he hk hp

theorem observeEdge_unpaired {cap : Option Nat} {t : Sample} {s : State} (v : Bool) (he : s.e1v = true)
    (hk : edgeKind t s = halfCycleOfBit v) (hp : s.pk ≠ pendingOfBit v) :
    observeEdge cap t s = leavePending (pendingOfBit v) t s := by
  cases v with
  | false => simp [observeEdge, he, hk, show s.pk ≠ .active from hp, halfCycleOfBit, pendingOfBit]
  | true => simp [observeEdge, he, hk, show s.pk ≠ .inactive from hp, halfCycleOfBit, pendingOfBit]

/-! ## The hand-off of a pair (R128) -/

/-- What BitFramer does with a Bit in any mode it does with the pair's Bit, after RAW_BIT. -/
theorem pairComplete_of_framerBit {cap : Option Nat} {v : Bool} {t : Sample} {s w : State} {evs : List Event} {m : Mode}
    (h : framerBit cap v s.e2 t { s with mode := m } = .next w) (ho : w.out = s.out ++ evs.map .event) :
    pairComplete cap v t s = .next { w with
      mode := s.mode, pk := .none, e2 := s.e1, e1 := t,
      out := s.out ++ (⟨.rawBit, s.e2, t, bitVal v⟩ :: evs).map .event } := by
  have hrebased := framerBit_rebase s.mode .none s.e1 t (s.out ++ [.event ⟨.rawBit, s.e2, t, bitVal v⟩]) h ho
  rw [List.append_assoc] at hrebased
  exact hrebased

/-- A Bit that BitFramer refuses in any mode it refuses from a pair: the framer state and the block decide (R163). -/
theorem pairComplete_of_framerBit_refused {cap : Option Nat} {v : Bool} {t : Sample} {s : State} {q : RefuseReason}
    {m : Mode} (h : framerBit cap v s.e2 t { s with mode := m } = .refused q) :
    pairComplete cap v t s = .refused q := by
  obtain ⟨rfl, hf, rfl, hb⟩ := framerBit_refused h
  exact pairComplete_full hf hb

/-- With room in the block no EDGE is refused by its rule: only the Bit of a pair could be. -/
theorem observeEdge_ne_refused {cap : Option Nat} {t : Sample} {s : State} (hroom : blockFull cap s.bb.length = false)
    (q : RefuseReason) : observeEdge cap t s ≠ .refused q := by
  have pair : ∀ v, pairComplete cap v t s ≠ .refused q := by
    intro v h
    obtain ⟨-, -, -, hfull⟩ := framerBit_refused h
    exact absurd (hroom.symm.trans hfull) nofun
  rcases observeEdge_cases cap t s with
    ⟨-, hx⟩ | ⟨-, -, hx⟩ | ⟨-, -, -, hx⟩ | ⟨-, -, -, hx⟩ | ⟨-, -, -, hx⟩ | ⟨-, -, -, hx⟩ <;> rw [hx]
  · exact nofun
  · exact nofun
  · exact pair false
  · exact pair true
  · exact nofun
  · exact nofun

theorem observeEdge_answers {cap : Option Nat} {t : Sample} {s : State} (hs : FramerInv s)
    (hroom : blockFull cap s.bb.length = false) : ∃ u, observeEdge cap t s = .next u := by
  cases hx : observeEdge cap t s with
  | next u => exact ⟨u, rfl⟩
  | refused q => exact absurd hx (observeEdge_ne_refused hroom q)
  | fault f => exact absurd hx (observeEdge_ne_fault hs f)

/-- A configured session classifies no edge at or before the reference: its half-cycle is an Error (R104, R130). -/
theorem edgeKind_of_not_increasing {t : Sample} {s : State} (hrun : s.session = .running) (hconfig : ConfigInv s)
    (hle : t.toNat ≤ s.e1.toNat) : edgeKind t s = .error := by
  obtain ⟨hrate, hahc, hihc, hmargin⟩ := hconfig hrun
  have hnonpos : intervalLength t s.e1 ≤ 0 := by
    unfold intervalLength
    omega
  rw [edgeKind, hahc, hihc, hmargin]
  exact classifyInterval_of_nonpos hrate hnonpos

/-! ## The obligations -/

/-- Settles O22: the case of R121 with no edge yet. -/
theorem firstEdgeSetsReference : Obligations.FirstEdgeSetsReference := by
  intro t s hr he
  rw [exec_edge_of_ready hr, observeEdge_first he]
  rfl

/-- Settles O23: the rule of an Error half-cycle, and `framerError` behind it, delivers one event. -/
theorem errorHalfCycleAborts : Obligations.ErrorHalfCycleAborts := by
  intro t s hr he hk
  rw [exec_edge_of_ready hr, observeEdge_error he hk, errorHalfCycle, complete]
  simp [framerError, State.emit, State.clearBlock, State.clearFrame, State.goTo, State.setPending, State.advanceEdges,
    State.respond, delivery, subtypeVal]

/-- Settles O24: one argument for both kinds, `observeEdge_unpaired`. -/
theorem unpairedHalfCycleWaits : Obligations.UnpairedHalfCycleWaits := by
  intro t s hr he
  have waits : ∀ v, edgeKind t s = halfCycleOfBit v → s.pk ≠ pendingOfBit v →
      exec (.edge t) s =
        .next { s with pk := pendingOfBit v, e2 := s.e1, e1 := t, out := s.out ++ delivery [] .ok } := by
    intro v hk hp
    rw [exec_edge_of_ready hr, observeEdge_unpaired v he hk hp]
    rfl
  exact ⟨waits false, waits true⟩

/-- Settles O25: EDGE runs `pairComplete`, and BIT tells what BitFramer answers there, since BitFramer reads neither the
mode nor the classifier's registers. -/
theorem pairActsAsBitItem : Obligations.PairActsAsBitItem := by
  intro t s v hr he hk hp
  have hbits : ReadyForBits { s with mode := .pre } := ⟨hr.1, rfl⟩
  rw [exec_edge_of_ready hr, observeEdge_pair he hk hp]
  refine ⟨fun u evs h ho => ?_, fun u evs q h ho => ?_⟩
  · obtain ⟨w, hw, hout, rfl⟩ := framerBit_of_exec_bit_ok hbits h ho
    rw [pairComplete_of_framerBit hw hout, hr.2]
    simp [complete, State.respond, delivery, bitVal]
  · rw [pairComplete_of_framerBit_refused (framerBit_of_exec_bit_refused hbits h ho)]
    rfl

/-- Settles O26: the rule of EDGE answers, and `observeEdge_frame` says what it makes of the edge history. -/
theorem edgeCompletes : Obligations.EdgeCompletes := by
  intro t s hr hs hroom
  obtain ⟨u, hu⟩ := observeEdge_answers (t := t) hs hroom
  obtain ⟨evs, hout⟩ := observeEdge_out hu
  obtain ⟨-, -, -, -, -, -, -, -, he1v, he1, he2⟩ := observeEdge_frame hu
  have hx : exec (.edge t) s = .next (u.respond .ok) := by
    rw [exec_edge_of_ready hr, hu]
    rfl
  exact ⟨u.respond .ok, evs, hx, respond_out hout, he1v, he1, fun he => he2.trans (if_pos he)⟩

/-- Settles O27: such an edge ends an Error half-cycle, of which `errorHalfCycleAborts` gives the whole next state. -/
theorem nonIncreasingEdgeIsError : Obligations.NonIncreasingEdgeIsError :=
  fun t s hr hconfig he hle => errorHalfCycleAborts t s hr he (edgeKind_of_not_increasing hr.1 hconfig hle)

end Sys2Proof.Machine

/-!
PROOFS. The framer family (42_bit_framer.md): every rule of BitFramer as a whole next state (R142 to R153), where FRAME and
BLOCK events come from (R161, R164), the count of a sealed block (R165), and ten bits that make a frame (R156).
-/

namespace Sys2Proof.Machine

/-! ## One transition of BitFramer -/

/-- The row that the framer state selects, and BIT with it, answer what the row's rule answers (R83, R140). -/
theorem row_and_bit_answer {row : FramerState} {rule : State → RuleResult} {v : Bool} {ss es : Sample} {s t : State}
    (hr : ReadyForBits s) (hf : s.fs = row) (hrule : framerBit Config.blockCap v ss es s = rule s)
    (h : complete s (rule s) = .next t) : runRow row rule s = .next t ∧ exec (.bit v ss es) s = .next t := by
  have hbit : exec (.bit v ss es) s = .next t := by rw [exec_bit_of_ready hr, hrule, h]
  exact ⟨(execBit_eq_runRow hf hrule).symm.trans hbit, hbit⟩

/-- Settles O30: one start rule serves the three states. -/
theorem startBitStartsFrame : Obligations.StartBitStartsFrame := by
  intro ss es s hr started
  have hstart : complete s (.next (s.startFrame ss es)) = .next started := by
    simp [complete, State.startFrame, State.emit, State.respond, delivery, started]
  refine ⟨fun hf => ?_, fun hf => ?_, fun hf => ?_⟩
  · have hrule : framerBit Config.blockCap false ss es s = ruleIdle0 ss es s := by simp only [framerBit, hf]
    obtain ⟨hrow, hbit⟩ := row_and_bit_answer hr hf hrule hstart
    exact ⟨hrow, hbit, fun hs => (hs.1 hf).2⟩
  · exact row_and_bit_answer hr hf (by simp only [framerBit, hf]) hstart
  · exact row_and_bit_answer hr hf (by simp only [framerBit, hf]) hstart

/-- Settles O31: the rule of the idle line answers its state, and EDGE does what BIT does (`pairActsAsBitItem`). -/
theorem idleLineIgnored : Obligations.IdleLineIgnored := by
  have ignored : ∀ (ss es : Sample) (s : State), ReadyForBits s → s.fs = .idle →
      exec (.bit1Idle ss es) s = .next { s with out := s.out ++ delivery [] .ok } ∧
      exec (.bit true ss es) s = .next { s with out := s.out ++ delivery [] .ok } :=
    fun ss es s hr hf => row_and_bit_answer hr hf (by simp only [framerBit, hf]) rfl
  refine ⟨ignored, fun t s hr hf he hp hk => ?_⟩
  obtain ⟨-, hbit⟩ := ignored s.e2 t { s with mode := .pre } ⟨hr.1, rfl⟩ hf
  obtain ⟨hedge, -⟩ := pairActsAsBitItem t s true hr he hk hp
  rw [hedge _ [] hbit rfl, hr.2]
  rfl

theorem fbCnt_add_one {c : BitVec 4} (h : c.toNat ≤ 8) : (c + 1#4).toNat = c.toNat + 1 := by
  rw [BitVec.toNat_add]
  exact Nat.mod_eq_of_lt (show c.toNat + 1 < 16 by omega)

/-- Settles O32: the rule of `Data`, in which `setFrameBit` writes the one position. -/
theorem dataBitAppended : Obligations.DataBitAppended := by
  intro v ss es s hr hf hcnt
  refine ⟨setFrameBit s.fbBits s.fbCnt.toNat v, ?_, fun i hi => ?_, fbCnt_add_one hcnt, ?_⟩
  · rw [setFrameBit_getLsbD _ _ _ _ (by omega), if_pos rfl]
  · rw [setFrameBit_getLsbD _ _ _ _ (by omega), if_neg hi]
  · intro appended
    have hdata : complete s (ruleData v ss es s) = .next appended := by
      simp [complete, ruleData, dataBits, Nat.not_lt.mpr hcnt, hf, State.emit, State.respond, delivery, bitVal, appended]
    have hrule : framerBit Config.blockCap v ss es s = ruleData v ss es s := by simp only [framerBit, hf]
    obtain ⟨hrow, hbit⟩ := row_and_bit_answer hr hf hrule hdata
    exact ⟨hbit, fun hv => by subst hv; exact hrow, fun hv => by subst hv; exact hrow⟩

/-- Settles O33: bit `i` of the buffer is its number divided by `2 ^ i`, modulo 2, and the byte is bits 8 to 1. -/
theorem packByteValue : Obligations.PackByteValue := by
  intro bits
  have hbit : ∀ i, (bits.getLsbD i).toNat = bits.toNat / 2 ^ i % 2 := fun i => Nat.toNat_testBit ..
  have hlt := bits.isLt
  have hbyte : (packByte bits).toNat = bits.toNat / 2 % 256 := by
    simp [packByte, BitVec.extractLsb'_toNat, Nat.shiftRight_eq_div_pow]
  simp only [hbyte, hbit]
  omega

theorem blockFull_eq_false_iff {cap : Option Nat} {n : Nat} :
    blockFull cap n = false ↔ ∀ c, cap = some c → n ≠ c := by
  cases cap <;> simp [blockFull]

/-- Settles O34: the rule of the stop bit, past its test of the capacity. -/
theorem stopBitCompletesFrame : Obligations.StopBitCompletesFrame := by
  intro ss es s hr hf hroom completed
  refine row_and_bit_answer hr hf (by simp only [framerBit, hf]) ?_
  simp [complete, ruleFrameStop1, blockFull_eq_false_iff.mpr hroom, State.emit, State.appendFrame, State.clearFrame, State.goTo,
    State.respond, delivery, completed]

/-- Settles O36: the rule of the framing error, and the start rule from the state it leaves. -/
theorem framingErrorDiscards : Obligations.FramingErrorDiscards := by
  intro ss es s hr hf events discarded
  have hevents : framingEvents s.fbSs s.fbEs s.bb = events := by cases hb : s.bb <;> simp [framingEvents, events, hb]
  have herror : complete s (ruleFrameStop0 s) = .next discarded := by
    simp [complete, ruleFrameStop0, hevents, State.emitAll, State.clearBlock, State.clearFrame, State.goTo, State.respond,
      delivery, discarded]
  obtain ⟨hrow, hbit⟩ := row_and_bit_answer (v := false) hr hf (by simp only [framerBit, hf]) herror
  refine ⟨hrow, hbit, fun ss' es' => ?_⟩
  obtain ⟨hidle, -, -⟩ := startBitStartsFrame ss' es' discarded hr
  obtain ⟨-, hstart, -⟩ := hidle rfl
  exact hstart

/-- Settles O37: the rule of the spacer writes `FS` alone. -/
theorem spacerBit : Obligations.SpacerBit := by
  intro ss es s hr hf spaced
  refine row_and_bit_answer hr hf (by simp only [framerBit, hf]) ?_
  simp [complete, ruleFrameStop21, State.emit, State.goTo, State.respond, delivery, spaced]

/-- Settles O38: the rule of the terminator, which finds a frame in the block. -/
theorem terminatorSealsBlock : Obligations.TerminatorSealsBlock := by
  intro ss es s f fs hr hf hb sealed
  refine row_and_bit_answer hr hf (by simp only [framerBit, hf]) ?_
  simp [complete, ruleBlockStop1, hb, State.emit, State.emitAll, State.clearBlock, State.goTo, State.respond, delivery,
    sealed]

/-- Settles O39: ERR and `ERR.any` have one meaning, `framerError`. -/
theorem errorResetsFramer : Obligations.ErrorResetsFramer := by
  intro u ss es s hr aborted
  have herror : complete s (.next (framerError u ss es s)) = .next aborted := by
    simp [complete, framerError, State.emit, State.clearBlock, State.clearFrame, State.goTo, State.respond, delivery,
      aborted]
    cases u <;> rfl
  have hrun : runItem .err (fun t => .next (framerError u ss es t)) s = .next aborted :=
    (runItem_of_legal (itemRefusal_err_none.mpr hr)).trans herror
  exact ⟨hrun, hrun⟩

/-- Settles O35: the stop bit is refused where `blockFull` says so, and the 0 and the Error empty the block. -/
theorem fullBlockRefusesStopBit : Obligations.FullBlockRefusesStopBit := by
  intro ss es s hr hf
  have hrow : exec (.bit true ss es) s = exec (.bit1FrameStop ss es) s :=
    execBit_eq_runRow hf (by simp only [framerBit, hf])
  have hbit := exec_bit_of_ready (v := true) (ss := ss) (es := es) hr
  obtain ⟨-, hzero, -⟩ := framingErrorDiscards ss es s hr hf
  refine ⟨fun c => ⟨fun h => ?_, fun h => framerBit_full hf ((blockFull_some c _).mpr h)⟩, hbit, hrow.symm.trans hbit, rfl,
    fun _ => blockCap_ge, ⟨_, hzero, rfl, rfl⟩, fun u => ⟨_, (errorResetsFramer u ss es s hr).1, rfl, rfl⟩⟩
  obtain ⟨-, -, -, hfull⟩ := framerBit_refused h
  exact (blockFull_some c _).mp hfull

/-- Settles O40: the whole next states of the obligations above, case by case of `(FS, v)`. -/
theorem transitionTable : Obligations.TransitionTable := by
  intro ss es s hr ⟨_, hdata, _, _, hblock, _⟩
  refine ⟨fun v hroom => ?_, fun u => ⟨_, _, (errorResetsFramer u ss es s hr).1, rfl, rfl, rfl⟩⟩
  obtain ⟨hidle0, hstop20, hblock0⟩ := startBitStartsFrame ss es s hr
  cases hf : s.fs with
  | idle =>
    cases v with
    | false =>
      obtain ⟨-, hbit, -⟩ := hidle0 hf
      exact ⟨_, _, hbit, rfl, rfl, rfl⟩
    | true => exact ⟨_, _, (idleLineIgnored.1 ss es s hr hf).2, rfl, hf, rfl⟩
  | data =>
    obtain ⟨-, hcnt, -⟩ := hdata hf
    obtain ⟨bits, -, -, -, hbit, -⟩ := dataBitAppended v ss es s hr hf hcnt
    refine ⟨_, _, hbit, rfl, ?_⟩
    have h8 : s.fbCnt.toNat = 8 ↔ s.fbCnt = 8#4 := BitVec.toNat_inj (y := 8#4)
    simp [h8]
  | frameStop =>
    cases v with
    | false =>
      obtain ⟨-, hbit, -⟩ := framingErrorDiscards ss es s hr hf
      refine ⟨_, _, hbit, rfl, rfl, ?_⟩
      cases s.bb <;> rfl
    | true => exact ⟨_, _, (stopBitCompletesFrame ss es s hr hf (blockFull_eq_false_iff.mp hroom)).2, rfl, rfl, rfl⟩
  | frameStop2 =>
    cases v with
    | false => exact ⟨_, _, (hstop20 hf).2, rfl, rfl, rfl⟩
    | true => exact ⟨_, _, (spacerBit ss es s hr hf).2, rfl, rfl, rfl⟩
  | blockStop =>
    cases v with
    | false => exact ⟨_, _, (hblock0 hf).2, rfl, rfl, rfl⟩
    | true =>
      obtain ⟨-, hlen⟩ := hblock hf
      obtain ⟨f, fs, hb⟩ := List.exists_cons_of_length_pos hlen
      exact ⟨_, _, (terminatorSealsBlock ss es s f fs hr hf hb).2, rfl, rfl, rfl⟩

/-! ## Ten bits that make a frame (R156) -/

theorem execAll_append_singleton {l : List Instr} {i : Instr} {s t : State} (h : execAll l s = .next t) :
    execAll (l ++ [i]) s = exec i t := by
  induction l generalizing s with
  | nil =>
    cases h
    cases hi : exec i t <;> simp [execAll, hi]
  | cons j l ih =>
    simp only [execAll, List.cons_append] at h ⊢
    cases hj : exec j s with
    | next u =>
      rw [hj] at h
      exact ih h
    | fault f => simp [hj] at h
    | refused q => simp [hj] at h

/-- The ten BIT items of a frame, with any spans. -/
def tenBits (byte : Byte) (a b : Fin 10 → Sample) : List Instr :=
  (List.finRange 10).map fun i => .bit (frameBit byte i.val) (a i) (b i)

theorem tenBits_take_succ (byte : Byte) (a b : Fin 10 → Sample) (n : Nat) (hn : n < 10) :
    (tenBits byte a b).take (n + 1) = (tenBits byte a b).take n ++ [.bit (frameBit byte n) (a ⟨n, hn⟩) (b ⟨n, hn⟩)] := by
  have hlen : n < (tenBits byte a b).length := by simpa [tenBits] using hn
  rw [← List.take_concat_get' _ _ hlen]
  simp [tenBits]

/-- An output of a frame in progress: an OK response, or an event that neither completes nor discards a frame. -/
def FrameOutput : Output → Prop
  | .event e => e.kind ≠ .frame ∧ e.kind ≠ .framingError
  | .response r => r = .ok

theorem frameOutput_delivery {e : Event} (hframe : e.kind ≠ .frame) (herror : e.kind ≠ .framingError) :
    ∀ o ∈ delivery [e] .ok, FrameOutput o := by
  simp [delivery, FrameOutput, hframe, herror]

/-- Such outputs hold no FRAME event. -/
theorem filter_frame_eq_nil {os : List Output} (h : ∀ o ∈ os, FrameOutput o) :
    (os.filterMap Output.event?).filter (fun e => e.kind == .frame) = [] := by
  rw [List.filter_eq_nil_iff]
  intro e he
  obtain ⟨o, ho, hoe⟩ := List.mem_filterMap.mp he
  cases o with
  | event e' =>
    cases hoe
    simpa using (h _ ho).1
  | response r => cases hoe

/-- Such an output, where it is not an OK response, is no FRAMING_ERROR event. -/
theorem FrameOutput.event_of_not_ok {o : Output} (h : FrameOutput o) (hok : o.response? ≠ some .ok) :
    ∃ e, o = .event e ∧ e.kind ≠ .framingError := by
  cases o with
  | event e => exact ⟨e, rfl, h.2⟩
  | response r => exact absurd (congrArg some h) hok

/-- The first `n` bits of the frame have been taken since `s`, the start bit's span beginning at `ss`. -/
structure FrameUnderWay (byte : Byte) (ss : Sample) (s : State) (n : Nat) (t : State) : Prop where
  ready : ReadyForBits t
  fs : t.fs = if n = 9 then .frameStop else .data
  count : t.fbCnt.toNat = n
  bits : ∀ i, 1 ≤ i → i < n → t.fbBits.getLsbD i = frameBit byte i
  start : t.fbSs = ss
  block : t.bb = s.bb
  out : ∃ added, t.out = s.out ++ added ∧ ∀ o ∈ added, FrameOutput o

/-- The start bit (R146). -/
theorem frameUnderWay_startBit {s : State} (byte : Byte) (ss es : Sample) (hr : ReadyForBits s)
    (hf : s.fs = .idle ∨ s.fs = .frameStop2 ∨ s.fs = .blockStop) :
    ∃ t, exec (.bit false ss es) s = .next t ∧ FrameUnderWay byte ss s 1 t := by
  obtain ⟨hidle, hstop2, hblock⟩ := startBitStartsFrame ss es s hr
  have hbit := hf.elim (fun h => (hidle h).2.1) fun h => h.elim (fun h => (hstop2 h).2) fun h => (hblock h).2
  exact ⟨_, hbit, hr, rfl, rfl, fun i h1 h2 => absurd h2 (Nat.not_lt.mpr h1), rfl, rfl, _, rfl,
    frameOutput_delivery nofun nofun⟩

/-- A data bit (R144). -/
theorem FrameUnderWay.dataBit {byte : Byte} {ss₀ : Sample} {s t : State} {n : Nat} (h : FrameUnderWay byte ss₀ s n t)
    (hn : n ≤ 8) (ss es : Sample) :
    ∃ u, exec (.bit (frameBit byte n) ss es) t = .next u ∧ FrameUnderWay byte ss₀ s (n + 1) u := by
  obtain ⟨hr, hf, rfl, hbits, hstart, hblock, added, hout, hadded⟩ := h
  rw [if_neg (by omega)] at hf
  obtain ⟨bits, hnew, hold, hcnt, hbit, -⟩ := dataBitAppended (frameBit byte t.fbCnt.toNat) ss es t hr hf hn
  refine ⟨_, hbit, hr, ?_, hcnt, fun i h1 h2 => ?_, hstart, hblock, _,
    (congrArg (· ++ delivery _ _) hout).trans (List.append_assoc ..),
    fun o ho => (List.mem_append.mp ho).elim (hadded o) (frameOutput_delivery (by simp) (by simp) o)⟩
  · simp
  · by_cases hi : i = t.fbCnt.toNat
    · rw [hi]
      exact hnew
    · exact (hold i hi).trans (hbits i h1 (by omega))

/-- The first `n` of the ten items, from 1 to 9. -/
theorem execAll_tenBits_take (byte : Byte) (a b : Fin 10 → Sample) {s : State} (hr : ReadyForBits s)
    (hf : s.fs = .idle ∨ s.fs = .frameStop2 ∨ s.fs = .blockStop) {n : Nat} (h1 : 1 ≤ n) (h9 : n ≤ 9) :
    ∃ t, execAll ((tenBits byte a b).take n) s = .next t ∧ FrameUnderWay byte (a 0) s n t := by
  induction n, h1 using Nat.le_induction with
  | base =>
    obtain ⟨t, ht, hframe⟩ := frameUnderWay_startBit byte (a 0) (b 0) hr hf
    rw [tenBits_take_succ byte a b 0 (by omega)]
    exact ⟨t, (execAll_append_singleton rfl).trans ht, hframe⟩
  | succ n _ ih =>
    obtain ⟨t, ht, hframe⟩ := ih (by omega)
    obtain ⟨u, hu, hframe'⟩ := hframe.dataBit (by omega) (a ⟨n, by omega⟩) (b ⟨n, by omega⟩)
    rw [tenBits_take_succ byte a b n (by omega)]
    exact ⟨u, (execAll_append_singleton ht).trans hu, hframe'⟩

/-- The byte packed from a buffer that holds the nine bits of the frame (R145). -/
theorem FrameUnderWay.packByte_eq {byte : Byte} {ss : Sample} {s t : State} (h : FrameUnderWay byte ss s 9 t) :
    packByte t.fbBits = byte := by
  apply BitVec.eq_of_getLsbD_eq
  intro i hi
  rw [packByte_getLsbD _ i hi, h.bits (i + 1) (by omega) (by omega), frameBit, if_neg (by omega), if_neg (by omega)]
  rfl

/-- Settles O44: nine bits by `execAll_tenBits_take`, and the stop bit by `stopBitCompletesFrame`. -/
theorem tenBitsGiveOneFrame : Obligations.TenBitsGiveOneFrame := by
  intro byte a b s hr hf hroom
  obtain ⟨t, ht, hframe⟩ := execAll_tenBits_take byte a b hr hf (n := 9) (by omega) le_rfl
  have hbyte := hframe.packByte_eq
  obtain ⟨hr', hf', -, -, hstart, hblock, added, hout, hadded⟩ := hframe
  rw [← hblock] at hroom
  obtain ⟨-, hstop⟩ := stopBitCompletesFrame (a 9) (b 9) t hr' hf' (blockFull_eq_false_iff.mp hroom)
  rw [hbyte, hstart, hblock, hout, List.append_assoc] at hstop
  have hten : tenBits byte a b = (tenBits byte a b).take 9 ++ [.bit true (a 9) (b 9)] := by
    rw [← List.take_of_length_le (l := tenBits byte a b) (i := 10) (by simp [tenBits])]
    exact tenBits_take_succ byte a b 9 (by omega)
  have hexec := (congrArg (execAll · s) hten).trans ((execAll_append_singleton ht).trans hstop)
  refine ⟨_, _, hexec, rfl, ?_, fun o ho hok => ?_, rfl, rfl, rfl, rfl, rfl, rfl⟩
  · rw [List.filterMap_append, List.filter_append, filter_frame_eq_nil hadded]
    rfl
  · rcases List.mem_append.mp ho with ho | ho
    · exact (hadded o ho).event_of_not_ok hok
    · simp only [delivery, List.map_cons, List.map_nil, List.cons_append, List.nil_append, List.mem_cons,
        List.not_mem_nil, or_false] at ho
      rcases ho with rfl | rfl | rfl
      · exact ⟨_, rfl, nofun⟩
      · exact ⟨_, rfl, nofun⟩
      · exact absurd rfl hok

/-! ## What one Bit does to the block buffer and to the events -/

/-- What a Bit `v` over `[ss, es]` makes of the block buffer, and the events it delivers: the rules of R140, those that keep
the block and only mark a bit taken together. -/
inductive BitMove (v : Bool) (ss es : Sample) (s t : State) : List Event → Prop where
  | marker {evs : List Event} : t.bb = s.bb → (∀ e ∈ evs, e.kind ∈ [EventKind.startBit, .dataBit, .spacerBit]) →
      BitMove v ss es s t evs
  | stopBit : v = true → s.fs = .frameStop → t.fs = .frameStop2 → t.bb = s.bb ++ [⟨packByte s.fbBits, s.fbSs, es⟩] →
      BitMove v ss es s t [⟨.stopBit, ss, es, 1⟩, ⟨.frame, s.fbSs, es, (packByte s.fbBits).toNat⟩]
  | framingError : t.bb = [] → BitMove v ss es s t (framingEvents s.fbSs s.fbEs s.bb)
  | terminator (f : Frame) (fs : List Frame) : v = true → s.fs = .blockStop → s.bb = f :: fs → t.fs = .idle → t.bb = [] →
      BitMove v ss es s t (⟨.blockEnd, ss, es, 1⟩ :: decodeBlock f fs f.ss es)

theorem framerBit_bitMove {cap : Option Nat} {v : Bool} {ss es : Sample} {s t : State}
    (h : framerBit cap v ss es s = .next t) :
    ∃ evs, t.out = s.out ++ evs.map .event ∧ BitMove v ss es s t evs := by
  rcases framerBit_next h with
    ⟨-, -, rfl⟩ | ⟨-, -, rfl⟩ | ⟨-, -, rfl⟩ | ⟨hf, hv, -, rfl⟩ | ⟨-, -, rfl⟩ | ⟨-, -, rfl⟩ | ⟨hf, hv, f, fs, hb, rfl⟩
  · exact ⟨[⟨.startBit, ss, es, 0⟩], rfl, .marker rfl (by simp)⟩
  · exact ⟨[], by simp, .marker rfl (by simp)⟩
  · exact ⟨[⟨.dataBit, ss, es, bitVal v⟩], rfl, .marker rfl (by simp)⟩
  · exact ⟨_, by simp, .stopBit hv hf rfl rfl⟩
  · exact ⟨_, by simp, .framingError rfl⟩
  · exact ⟨[⟨.spacerBit, ss, es, 1⟩], rfl, .marker rfl (by simp)⟩
  · exact ⟨_, by simp, .terminator f fs hv hf hb rfl rfl⟩

/-- Only the registers of BitFramer matter. -/
theorem BitMove.of_sameFramer {v : Bool} {ss es : Sample} {s s' t t' : State} {evs : List Event} (hs : SameFramer s s')
    (ht : SameFramer t t') (h : BitMove v ss es s' t evs) : BitMove v ss es s t' evs := by
  cases h with
  | marker hbb hkinds => exact .marker (ht.bb.trans (hbb.trans hs.bb)) hkinds
  | stopBit hv hf hf' hbb =>
    rw [hs.fbSs, hs.fbBits]
    exact .stopBit hv (hs.fs.symm.trans hf) (ht.fs.trans hf') (by rw [ht.bb, hbb, hs.bb, hs.fbSs, hs.fbBits])
  | framingError hbb =>
    rw [hs.fbSs, hs.fbEs, hs.bb]
    exact .framingError (ht.bb.trans hbb)
  | terminator f fs hv hf hb hf' hbb =>
    exact .terminator f fs hv (hs.fs.symm.trans hf) (hs.bb.symm.trans hb) (ht.fs.trans hf') (ht.bb.trans hbb)

theorem respond_sameFramer (t : State) (r : Response) : SameFramer t (t.respond r) := by constructor <;> rfl

theorem framingEvents_kinds {ss es : Sample} {bb : List Frame} {e : Event} (h : e ∈ framingEvents ss es bb) :
    e.kind = .framingError ∨ e.kind = .blockError := by
  cases bb <;> simp [framingEvents] at h
  · simp [h]
  · rcases h with rfl | rfl <;> simp

/-- The events of a terminator: BLOCK_END, one BLOCK with the number of frames, and labels and diagnostics. -/
theorem terminatorEvents_kinds {ss es bss bes : Sample} {f : Frame} {fs : List Frame} {e : Event}
    (h : e ∈ (⟨.blockEnd, ss, es, 1⟩ :: decodeBlock f fs bss bes : List Event)) :
    e.kind ≠ .frame ∧ (e.kind = .block → e = ⟨.block, bss, bes, fs.length + 1⟩) := by
  obtain ⟨labels, hdecode, hkinds⟩ := decodeBlock_kinds f fs bss bes
  rw [hdecode, List.mem_cons, List.mem_cons] at h
  rcases h with rfl | rfl | hlabel
  · exact ⟨nofun, nofun⟩
  · exact ⟨nofun, fun _ => rfl⟩
  · have hk := hkinds e hlabel
    exact ⟨fun h => by simp [h] at hk, fun h => by simp [h] at hk⟩

section BitMoves
variable {v : Bool} {ss es : Sample} {s t : State} {evs : List Event}

/-- A FRAME event comes from a 1 in `FrameStop` alone (R147, R161). -/
theorem BitMove.of_frame (h : BitMove v ss es s t evs) {e : Event} (he : e ∈ evs) (hk : e.kind = .frame) :
    v = true ∧ s.fs = .frameStop ∧ t.fs = .frameStop2 ∧ t.bb = s.bb ++ [⟨packByte s.fbBits, s.fbSs, es⟩] ∧
      e = ⟨.frame, s.fbSs, es, (packByte s.fbBits).toNat⟩ := by
  cases h with
  | marker _ hkinds => simpa [hk] using hkinds e he
  | stopBit hv hf hf' hbb =>
    simp only [List.mem_cons, List.not_mem_nil, or_false] at he
    rcases he with rfl | rfl
    · cases hk
    · exact ⟨hv, hf, hf', hbb, rfl⟩
  | framingError _ => rcases framingEvents_kinds he with h | h <;> cases hk.symm.trans h
  | terminator f fs _ _ _ _ _ => exact absurd hk (terminatorEvents_kinds he).1

/-- A BLOCK event comes from a 1 in `BlockStop` alone, over the block's span and with the number of its frames (R151, R164). -/
theorem BitMove.of_block (h : BitMove v ss es s t evs) {e : Event} (he : e ∈ evs) (hk : e.kind = .block) :
    v = true ∧ s.fs = .blockStop ∧ t.fs = .idle ∧ t.bb = [] ∧
      ∃ f fs, s.bb = f :: fs ∧ e = ⟨.block, f.ss, es, fs.length + 1⟩ := by
  cases h with
  | marker _ hkinds => simpa [hk] using hkinds e he
  | stopBit =>
    simp only [List.mem_cons, List.not_mem_nil, or_false] at he
    rcases he with rfl | rfl <;> cases hk
  | framingError _ => rcases framingEvents_kinds he with h | h <;> cases hk.symm.trans h
  | terminator f fs hv hf hb hf' hbb => exact ⟨hv, hf, hf', hbb, f, fs, hb, (terminatorEvents_kinds he).2 hk⟩

/-- The block buffer grows by a FRAME event only. -/
theorem BitMove.frame_of_longer (h : BitMove v ss es s t evs) (hlong : s.bb.length < t.bb.length) :
    ∃ e ∈ evs, e.kind = .frame := by
  cases h with
  | marker hbb _ => exact absurd (hbb ▸ hlong) (Nat.lt_irrefl _)
  | stopBit => exact ⟨_, List.mem_cons_of_mem _ (List.mem_singleton_self _), rfl⟩
  | framingError hbb => simp [hbb] at hlong
  | terminator f fs _ _ _ _ hbb => simp [hbb] at hlong

end BitMoves

/-! ## Counting the frames of the block in progress (R165) -/

/-- The kinds of event that R165's count does not pass over. -/
def countedKinds : List EventKind := [.frame, .blockEnd, .framingError, .decodeAbort]

theorem framesInProgress_uncounted (n : Nat) {evs : List Event} (h : ∀ e ∈ evs, e.kind ∉ countedKinds) :
    framesInProgress n (evs.map .event) = n := by
  induction evs with
  | nil => rfl
  | cons e evs ih =>
    have he : e.kind ∉ countedKinds := h e List.mem_cons_self
    simp only [countedKinds, List.mem_cons, List.not_mem_nil, or_false, not_or] at he
    obtain ⟨hframe, hend, herror, habort⟩ := he
    simpa [framesInProgress, hframe, hend, herror, habort] using ih fun e' he' => h e' (List.mem_cons_of_mem _ he')

/-- Events of kinds that are not counted, whatever the kinds. -/
theorem framesInProgress_of_kinds (n : Nat) {evs : List Event} {kinds : List EventKind} (h : ∀ e ∈ evs, e.kind ∈ kinds)
    (hk : ∀ k ∈ kinds, k ∉ countedKinds) : framesInProgress n (evs.map .event) = n :=
  framesInProgress_uncounted n fun e he => hk e.kind (h e he)

/-- The count goes on past a response. -/
theorem framesInProgress_delivery (n : Nat) (evs : List Event) (r : Response) :
    framesInProgress n (delivery evs r) = framesInProgress n (evs.map .event) := by
  rw [delivery, framesInProgress_append]
  rfl

theorem framesInProgress_framingEvents (n : Nat) (ss es : Sample) (bb : List Frame) :
    framesInProgress n ((framingEvents ss es bb).map .event) = 0 := by
  cases bb <;> simp [framingEvents, framesInProgress]

theorem framesInProgress_terminator (n : Nat) (ss es bss bes : Sample) (f : Frame) (fs : List Frame) :
    framesInProgress n ((⟨.blockEnd, ss, es, 1⟩ :: decodeBlock f fs bss bes : List Event).map .event) = 0 := by
  obtain ⟨labels, hdecode, hkinds⟩ := decodeBlock_kinds f fs bss bes
  have hlabels : framesInProgress 0 (labels.map .event) = 0 := framesInProgress_of_kinds 0 hkinds (by decide)
  simpa [hdecode, framesInProgress] using hlabels

/-- A Bit keeps R165: the frames counted on from the block's are those of the block after it. -/
theorem BitMove.keeps_frameCount {v : Bool} {ss es : Sample} {s t : State} {evs : List Event}
    (h : BitMove v ss es s t evs) : framesInProgress s.bb.length (evs.map .event) = t.bb.length := by
  cases h with
  | marker hbb hkinds =>
    rw [hbb]
    exact framesInProgress_of_kinds _ hkinds (by decide)
  | stopBit _ _ _ hbb => simp [framesInProgress, hbb]
  | framingError hbb => rw [hbb, framesInProgress_framingEvents]; rfl
  | terminator f fs _ _ _ _ hbb => rw [hbb, framesInProgress_terminator]; rfl

/-! ## What one instruction delivers -/

/-- All that an instruction delivers, as BitFramer sees it: no event, a Bit's events with at most RAW_BIT before them, or one
DECODE_ABORT. -/
inductive FramerDelivery (i : Instr) (s t : State) : List Event → Prop where
  | silent : t.bb = s.bb → FramerDelivery i s t []
  | bit {v : Bool} {ss es : Sample} {raw evs : List Event} : FeedsBit i s v ss es → (∀ e ∈ raw, e.kind = .rawBit) →
      BitMove v ss es s t evs → FramerDelivery i s t (raw ++ evs)
  | error {e : Event} : e.kind = .decodeAbort → t.bb = [] → FramerDelivery i s t [e]

/-- The rule of EDGE hands BitFramer a Bit exactly where `FeedsBit` says. -/
theorem observeEdge_delivery {x : Sample} {s u : State} (h : observeEdge Config.blockCap x s = .next u) :
    ∃ evs, u.out = s.out ++ evs.map .event ∧ FramerDelivery (.edge x) s (u.respond .ok) evs := by
  have pair : ∀ v, FeedsBit (.edge x) s v s.e2 x → pairComplete Config.blockCap v x s = .next u →
      ∃ evs, u.out = s.out ++ evs.map .event ∧ FramerDelivery (.edge x) s (u.respond .ok) evs := by
    intro v hfeeds hp
    obtain ⟨evs, hout, hmove⟩ := framerBit_bitMove hp
    exact ⟨[⟨.rawBit, s.e2, x, bitVal v⟩] ++ evs, by simp [hout],
      .bit hfeeds (by simp) (hmove.of_sameFramer (by constructor <;> rfl) (respond_sameFramer u .ok))⟩
  rcases observeEdge_cases Config.blockCap x s with
    ⟨-, hx⟩ | ⟨-, -, hx⟩ | ⟨he, hk, hp, hx⟩ | ⟨he, hk, hp, hx⟩ | ⟨-, -, -, hx⟩ | ⟨-, -, -, hx⟩ <;> rw [hx] at h
  · cases h; exact ⟨[], by simp, .silent rfl⟩
  · cases h; exact ⟨[⟨.decodeAbort, s.e1, x, 1⟩], by simp [subtypeVal], .error rfl rfl⟩
  · exact pair false (.inr ⟨rfl, he, rfl, hp, hk⟩) h
  · exact pair true (.inr ⟨rfl, he, rfl, hp, hk⟩) h
  · cases h; exact ⟨[], by simp, .silent rfl⟩
  · cases h; exact ⟨[], by simp, .silent rfl⟩

theorem exec_framerDelivery {i : Instr} {s t : State} {evs : List Event} {r : Response} (h : exec i s = .next t)
    (ho : t.out = s.out ++ delivery evs r) : FramerDelivery i s t evs := by
  have known : ∀ {evs' : List Event} {r' : Response}, t.out = s.out ++ delivery evs' r' → FramerDelivery i s t evs' →
      FramerDelivery i s t evs := fun ho' hd => (delivery_inj (ho.symm.trans ho')).1 ▸ hd
  rcases exec_next h with ⟨q, rfl⟩ | ⟨p, m, r, -, -, -, rfl⟩ | ⟨p, m, r, -, -, -, rfl⟩ | ⟨x, rfl, -, u, hu, rfl⟩ |
    ⟨v, ss, es, hi, -, u, hu, rfl⟩ | ⟨e, ss, es, -, -, rfl⟩
  · exact known (respond_out_nil s _) (.silent rfl)
  · exact known (respond_out_nil s _) (.silent rfl)
  · exact known (respond_out_nil (configure p m _ s) .ok) (.silent rfl)
  · obtain ⟨evs', hout, hdelivery⟩ := observeEdge_delivery hu
    exact known (respond_out hout) hdelivery
  · obtain ⟨evs', hout, hmove⟩ := framerBit_bitMove hu
    exact known (respond_out hout) (.bit (raw := []) (.inl hi) (by simp)
      (hmove.of_sameFramer (by constructor <;> rfl) (respond_sameFramer u .ok)))
  · exact known (respond_out (evs := [⟨.decodeAbort, ss, es, subtypeVal e⟩]) rfl) (.error rfl rfl)

section FramerDeliveries
variable {i : Instr} {s t : State} {evs : List Event}

/-- An event of an instruction is its RAW_BIT, its DECODE_ABORT, or one that the Bit it feeds delivers. -/
theorem FramerDelivery.mem (h : FramerDelivery i s t evs) {e : Event} (he : e ∈ evs) :
    e.kind = .rawBit ∨ e.kind = .decodeAbort ∨
    ∃ v ss es bitEvs, FeedsBit i s v ss es ∧ BitMove v ss es s t bitEvs ∧ e ∈ bitEvs := by
  cases h with
  | silent => cases he
  | bit hfeeds hraw hmove =>
    rcases List.mem_append.mp he with he | he
    · exact .inl (hraw e he)
    · exact .inr (.inr ⟨_, _, _, _, hfeeds, hmove, he⟩)
  | error hk _ =>
    cases List.mem_singleton.mp he
    exact .inr (.inl hk)

theorem FramerDelivery.of_frame (h : FramerDelivery i s t evs) {e : Event} (he : e ∈ evs) (hk : e.kind = .frame) :
    ∃ ss es, FeedsBit i s true ss es ∧ s.fs = .frameStop ∧ t.fs = .frameStop2 ∧
      t.bb = s.bb ++ [⟨packByte s.fbBits, s.fbSs, es⟩] ∧ e = ⟨.frame, s.fbSs, es, (packByte s.fbBits).toNat⟩ := by
  rcases h.mem he with hraw | habort | ⟨v, ss, es, bitEvs, hfeeds, hmove, hbit⟩
  · cases hk.symm.trans hraw
  · cases hk.symm.trans habort
  · obtain ⟨rfl, hmoved⟩ := hmove.of_frame hbit hk
    exact ⟨ss, es, hfeeds, hmoved⟩

theorem FramerDelivery.of_block (h : FramerDelivery i s t evs) {e : Event} (he : e ∈ evs) (hk : e.kind = .block) :
    ∃ ss es, FeedsBit i s true ss es ∧ s.fs = .blockStop ∧ t.fs = .idle ∧ t.bb = [] ∧
      ∃ f fs, s.bb = f :: fs ∧ e = ⟨.block, f.ss, es, fs.length + 1⟩ := by
  rcases h.mem he with hraw | habort | ⟨v, ss, es, bitEvs, hfeeds, hmove, hbit⟩
  · cases hk.symm.trans hraw
  · cases hk.symm.trans habort
  · obtain ⟨rfl, hmoved⟩ := hmove.of_block hbit hk
    exact ⟨ss, es, hfeeds, hmoved⟩

theorem FramerDelivery.frame_of_longer (h : FramerDelivery i s t evs) (hlong : s.bb.length < t.bb.length) :
    ∃ e ∈ evs, e.kind = .frame := by
  cases h with
  | silent hbb => exact absurd (hbb ▸ hlong) (Nat.lt_irrefl _)
  | bit _ _ hmove =>
    obtain ⟨e, he, hk⟩ := hmove.frame_of_longer hlong
    exact ⟨e, List.mem_append_right _ he, hk⟩
  | error _ hbb => simp [hbb] at hlong

/-- Every instruction keeps R165. -/
theorem FramerDelivery.keeps_frameCount (h : FramerDelivery i s t evs) :
    framesInProgress s.bb.length (evs.map .event) = t.bb.length := by
  cases h with
  | silent hbb => rw [hbb]; rfl
  | @bit v ss es raw bitEvs _ hraw hmove =>
    have huncounted : framesInProgress s.bb.length (raw.map .event) = s.bb.length :=
      framesInProgress_of_kinds (kinds := [.rawBit]) _ (fun e he => by simp [hraw e he]) (by decide)
    rw [List.map_append, framesInProgress_append, huncounted]
    exact hmove.keeps_frameCount
  | error hk hbb => simp [framesInProgress, hk, hbb]

end FramerDeliveries

/-- Settles O43: an instruction delivers a FRAME or a BLOCK only through the Bit that it feeds, of which `BitMove` says which
one it is. -/
theorem framesAndBlocksOnlyAtTheirBits : Obligations.FramesAndBlocksOnlyAtTheirBits := by
  intro i s t evs r h ho
  have hd := exec_framerDelivery h ho
  refine ⟨fun e he hk => ?_, hd.frame_of_longer, fun e he hk => ?_⟩
  · obtain ⟨ss, es, hfeeds, hf, hf', hbb, rfl⟩ := hd.of_frame he hk
    exact ⟨⟨ss, hfeeds⟩, hf, hf', hbb, rfl, rfl⟩
  · obtain ⟨ss, es, hfeeds, hf, hf', hbb, f, fs, hb, rfl⟩ := hd.of_block he hk
    exact ⟨⟨ss, hfeeds⟩, hf, hf', hbb, by simp [hb], by simp [hb]⟩

/-- What a step on a word adds to the output is R165's count gone on, and its BLOCK event carries the number of frames. -/
theorem step_item_frameCount {s t : State} {w : ItemWord} {rest : List Input} (hi : s.inp = .item w :: rest)
    (h : step s = .next t) :
    ∃ added, t.out = s.out ++ added ∧ framesInProgress s.bb.length added = t.bb.length ∧
      ∀ e, Output.event e ∈ added → e.kind = .block → e.val = s.bb.length ∧ 1 ≤ e.val := by
  rcases step_item_next hi h with ⟨i, -, hx⟩ | ⟨e, -, rfl⟩
  · obtain ⟨-, evs, r, ho⟩ := exec_out hx
    have hd := exec_framerDelivery hx ho
    refine ⟨delivery evs r, ho, (framesInProgress_delivery _ evs r).trans hd.keeps_frameCount, fun e he hk => ?_⟩
    have hmem : e ∈ evs := by simpa [delivery] using he
    obtain ⟨ss, es, -, -, -, -, f, fs, hb, rfl⟩ := hd.of_block hmem hk
    have hval : fs.length + 1 = s.bb.length := (congrArg List.length hb).symm
    exact ⟨hval, Nat.le_add_left 1 _⟩
  · exact ⟨delivery [] _, respond_out_nil _ _, rfl, by simp [delivery]⟩

/-- Settles O57: an idle step and a reset deliver nothing, and a reset begins the count anew with an empty block; a word is
`step_item_frameCount`. -/
theorem blockCountIsFrameEvents : Obligations.BlockCountIsFrameEvents := by
  intro s t mark ⟨hmark, hcount⟩ h
  rcases step_cases s with ⟨hi, hx⟩ | ⟨rest, hi, hx⟩ | ⟨w, rest, hi, -⟩
  · rw [hx] at h
    cases h
    rw [sessionMark_idle hi]
    exact ⟨⟨hmark, hcount⟩, [], by simp, by simp⟩
  · rw [hx] at h
    cases h
    rw [sessionMark_reset hi]
    exact ⟨⟨le_rfl, by simp [framesInProgress]⟩, [], by simp, by simp⟩
  · obtain ⟨added, ho, hadded, hblock⟩ := step_item_frameCount hi h
    rw [sessionMark_item hi]
    refine ⟨⟨?_, ?_⟩, added, ho, fun e he hk => ?_⟩
    · rw [ho, List.length_append]
      exact hmark.trans (Nat.le_add_right _ _)
    · rw [ho, List.drop_append_of_le_length hmark, framesInProgress_append, hcount, hadded]
    · rw [hcount]
      exact hblock e he hk

end Sys2Proof.Machine

/-!
PROOFS. The block-decoder family (43_block_decoder.md): the laws of the checksum (R173, R175), every event of a sealed block
in its order (R170 to R179), the TAGGER-STATUS block (R180), and how many events the sealing step emits (R238).
-/

namespace Sys2Proof.Machine

/-! ## The checksum as a sum -/

/-- `S` of R175: the sum of a block's bytes. -/
abbrev byteSum (frames : List Frame) : Nat := (frames.map fun f => f.byte.toNat).sum

theorem byteSum_nil : byteSum [] = 0 := rfl

theorem byteSum_append (l l' : List Frame) : byteSum (l ++ l') = byteSum l + byteSum l' := by
  simp [byteSum]

theorem byteSum_cons (f : Frame) (l : List Frame) : byteSum (f :: l) = f.byte.toNat + byteSum l := by
  simp [byteSum]

theorem checksumAcc_eq (frames : List Frame) : checksumAcc frames = 255 - (byteSum frames : Int) :=
  foldl_sub_eq frames checksumInit

theorem checksumValue_eq (frames : List Frame) :
    checksumValue frames = (255 - (byteSum frames : Int)).natAbs % 256 := by
  rw [checksumValue, checksumAcc_eq]

/-- The key fact of R175: `abs` keeps divisibility by 256, so the verdict is that of a wrapping accumulator. -/
theorem checksumValue_eq_zero_iff {frames : List Frame} : checksumValue frames = 0 ↔ byteSum frames % 256 = 255 := by
  rw [checksumValue_eq]
  omega

theorem checksumValue_eq_zero_iff_emod {frames : List Frame} :
    checksumValue frames = 0 ↔ (255 - (byteSum frames : Int)) % 256 = 0 := by
  rw [checksumValue_eq_zero_iff]
  omega

theorem checksumValue_of_acc_neg {frames : List Frame} (h : checksumAcc frames < 0) :
    checksumValue frames = (byteSum frames - 255) % 256 := by
  rw [checksumAcc_eq] at h
  rw [checksumValue_eq]
  omega

theorem checksumAcc_of_nonneg {frames : List Frame} (h : 0 ≤ checksumAcc frames) :
    checksumAcc frames = checksumValue frames := by
  rw [checksumAcc_eq] at h ⊢
  rw [checksumValue_eq]
  omega

/-- The one byte that closes a valid block (R175). -/
theorem checksumValue_concat_eq_zero_iff {frames : List Frame} {f : Frame} :
    checksumValue (frames ++ [f]) = 0 ↔ (f.byte.toNat : Int) = (255 - (byteSum frames : Int)) % 256 := by
  have hf := f.byte.isLt
  rw [checksumValue_eq_zero_iff, byteSum_append, byteSum_cons, byteSum_nil]
  omega

/-- Two valid blocks that differ in one byte at most have the same byte there: the sums differ by less than 256. -/
theorem byte_eq_of_checksumValue_eq_zero {l₁ l₂ : List Frame} {f g : Frame} (hf : checksumValue (l₁ ++ f :: l₂) = 0)
    (hg : checksumValue (l₁ ++ g :: l₂) = 0) : g.byte = f.byte := by
  have hf' := f.byte.isLt
  have hg' := g.byte.isLt
  rw [checksumValue_eq_zero_iff, byteSum_append, byteSum_cons] at hf hg
  apply BitVec.eq_of_toNat_eq
  omega

/-- Settles O45: the laws above, each of them arithmetic on the sum. -/
theorem checksumLaws : Obligations.ChecksumLaws :=
  ⟨fun l => ⟨checksumAcc_eq l, checksumValue_eq l, checksumValue_eq_zero_iff, checksumValue_eq_zero_iff_emod,
      checksumValue_of_acc_neg, checksumAcc_of_nonneg⟩,
    fun _ _ => checksumValue_concat_eq_zero_iff,
    fun _ _ _ _ hf hne hg => hne (byte_eq_of_checksumValue_eq_zero hf hg)⟩

/-! ## The parts of a sealed block's event list -/

/-- BAD_LENGTH is due for a TAGGER-STATUS block that has not 11 frames, and for no other (R172). -/
theorem checkLength_eq (t : Byte) (n : Nat) (bss bes : Sample) :
    checkLength t n bss bes = if t = 0x02#8 ∧ n ≠ 11 then [⟨.badLength, bss, bes, n⟩] else [] := by
  by_cases ht : t = 0x02#8
  · subst ht
    by_cases hn : n = 11 <;> simp [checkLength_known, hn]
  · simp [checkLength_unknown ht, ht]

theorem typeLabels_eq (f : Frame) :
    typeLabels f = ⟨.blockType, f.ss, f.es, f.byte.toNat⟩ ::
      if f.byte = 0x02#8 then [⟨.blockTypeName, f.ss, f.es, 2⟩] else [⟨.unknownType, f.ss, f.es, f.byte.toNat⟩] := by
  by_cases hf : f.byte = 0x02#8
  · simp [typeLabels, hf, knownType_known]
  · simp [typeLabels, hf, knownType_unknown hf]

theorem checkChecksum_of_valid {frames : List Frame} (h : byteSum frames % 256 = 255) (last : Frame) (bss bes : Sample) :
    checkChecksum frames last bss bes = [⟨.goodChecksum, last.ss, last.es, 0⟩] :=
  if_pos (checksumValue_eq_zero_iff.mpr h)

theorem checkChecksum_of_invalid {frames : List Frame} (h : byteSum frames % 256 ≠ 255) (last : Frame)
    (bss bes : Sample) :
    checkChecksum frames last bss bes = [⟨.badChecksum, bss, bes, checksumValue frames⟩] :=
  if_neg (mt checksumValue_eq_zero_iff.mp h)

/-- One of the two verdicts, and only one, in every block (R174). -/
theorem checkChecksum_length (frames : List Frame) (last : Frame) (bss bes : Sample) :
    (checkChecksum frames last bss bes).length = 1 := by
  unfold checkChecksum
  split <;> rfl

/-- All the events of a sealed block, with the constants of R172 and R176 in place of the table of known types. -/
theorem decodeBlock_eq (first : Frame) (rest : List Frame) (bss bes : Sample) :
    decodeBlock first rest bss bes =
      [⟨.block, bss, bes, rest.length + 1⟩] ++
      (if first.byte = 0x02#8 ∧ rest.length + 1 ≠ 11 then [⟨.badLength, bss, bes, rest.length + 1⟩] else []) ++
      checkChecksum (first :: rest) (lastFrame first rest) bss bes ++
      [⟨.blockType, first.ss, first.es, first.byte.toNat⟩] ++
      (if first.byte = 0x02#8 then [⟨.blockTypeName, first.ss, first.es, 2⟩]
        else [⟨.unknownType, first.ss, first.es, first.byte.toNat⟩]) ++
      [checksumLabel (lastFrame first rest)] ++ payloadLabels 0 rest.dropLast := by
  simp only [decodeBlock, extractFields, checkLength_eq, typeLabels_eq, List.append_assoc, List.cons_append,
    List.nil_append]

/-- R179: five events for any block (BLOCK, the verdict, two for the type, CHECKSUM_FIELD), one for BAD_LENGTH, and one
for each frame strictly between the first and the last. -/
theorem decodeBlock_length (first : Frame) (rest : List Frame) (bss bes : Sample) :
    (decodeBlock first rest bss bes).length =
      5 + (if first.byte = 0x02#8 ∧ rest.length + 1 ≠ 11 then 1 else 0) + (rest.length - 1) := by
  rw [decodeBlock_eq]
  simp only [List.length_append, List.length_cons, List.length_nil, checkChecksum_length, payloadLabels_length,
    List.length_dropLast, apply_ite List.length, ite_self, Nat.zero_add]
  omega

/-! ## The values of one kind of event -/

/-- The values of the events of kind `k`, in their order. -/
def valuesOf (k : EventKind) (evs : List Event) : List Nat := (evs.filter fun e => e.kind == k).map (·.val)

@[simp] theorem valuesOf_nil (k : EventKind) : valuesOf k [] = [] := rfl

@[simp] theorem valuesOf_cons (k : EventKind) (e : Event) (evs : List Event) :
    valuesOf k (e :: evs) = (if e.kind = k then [e.val] else []) ++ valuesOf k evs := by
  by_cases h : e.kind = k <;> simp [valuesOf, h]

@[simp] theorem valuesOf_append (k : EventKind) (evs evs' : List Event) :
    valuesOf k (evs ++ evs') = valuesOf k evs ++ valuesOf k evs' := by
  simp [valuesOf]

theorem valuesOf_payloadLabels_of_ne {k : EventKind} (hk : k ≠ .dataByte) (n : Nat) (fs : List Frame) :
    valuesOf k (payloadLabels n fs) = [] := by
  induction fs generalizing n with
  | nil => rfl
  | cons f fs ih => simp [payloadLabels, ih, hk.symm]

/-- The indexes packed in the payload labels count the payload bytes from `n` (R82, R178). -/
theorem payloadLabels_indexes (n : Nat) (fs : List Frame) :
    (valuesOf .dataByte (payloadLabels n fs)).map (· / 256) = List.range' n fs.length := by
  induction fs generalizing n with
  | nil => rfl
  | cons f fs ih =>
    have hindex : dataByteVal n f.byte / 256 = n := by
      have hf := f.byte.isLt
      rw [dataByteVal]
      omega
    simp [payloadLabels, ih, hindex, List.range'_succ]

/-! ## A TAGGER-STATUS block (R180) -/

/-- The sealed events of a block of type 0x02 and eleven frames with a valid sum: no BAD_LENGTH, a valid verdict. -/
theorem decodeBlock_tagger_clean {f : Frame} {fs : List Frame} (hf : f.byte = 0x02#8) (hn : fs.length = 10)
    (hsum : byteSum (f :: fs) % 256 = 255) (bss bes : Sample) :
    decodeBlock f fs bss bes =
      [⟨.block, bss, bes, 11⟩, ⟨.goodChecksum, (lastFrame f fs).ss, (lastFrame f fs).es, 0⟩,
        ⟨.blockType, f.ss, f.es, 2⟩, ⟨.blockTypeName, f.ss, f.es, 2⟩, checksumLabel (lastFrame f fs)] ++
      payloadLabels 0 fs.dropLast := by
  simp [decodeBlock_eq, hf, hn, checkChecksum_of_valid hsum]

/-- The sealed events of a block of type 0x02 and ten frames: one BAD_LENGTH, whatever the verdict. -/
theorem decodeBlock_tagger_short {f : Frame} {fs : List Frame} (hf : f.byte = 0x02#8) (hn : fs.length = 9)
    (bss bes : Sample) :
    decodeBlock f fs bss bes =
      [⟨.block, bss, bes, 10⟩, ⟨.badLength, bss, bes, 10⟩] ++
      checkChecksum (f :: fs) (lastFrame f fs) bss bes ++
      [⟨.blockType, f.ss, f.es, 2⟩, ⟨.blockTypeName, f.ss, f.es, 2⟩, checksumLabel (lastFrame f fs)] ++
      payloadLabels 0 fs.dropLast := by
  simp [decodeBlock_eq, hf, hn]

/-- What the terminator's step emits: BLOCK_END, then the sealed block's events (R151). -/
abbrev terminatorEvents (ss es : Sample) (f : Frame) (fs : List Frame) : List Event :=
  ⟨.blockEnd, ss, es, 1⟩ :: decodeBlock f fs f.ss es

theorem exec_terminator (ss es : Sample) {s : State} {f : Frame} {fs : List Frame} (hr : ReadyForBits s)
    (hs : s.fs = .blockStop) (hb : s.bb = f :: fs) :
    ∃ t, exec (.bit true ss es) s = .next t ∧ t.out = s.out ++ delivery (terminatorEvents ss es f fs) .ok :=
  ⟨_, (terminatorSealsBlock ss es s f fs hr hs hb).2, rfl⟩

section TaggerStatus
variable {f : Frame} {fs : List Frame} (hf : f.byte = 0x02#8)
include hf

theorem tagger_clean_no_diagnostic (hn : fs.length = 10) (hsum : byteSum (f :: fs) % 256 = 255) (ss es : Sample) :
    ∀ e ∈ terminatorEvents ss es f fs, e.kind.diagnostic = false := by
  have hlabel : ∀ e ∈ payloadLabels 0 fs.dropLast, e.kind.diagnostic = false := fun e he => by
    rw [payloadLabels_kind he]; rfl
  rw [terminatorEvents, decodeBlock_tagger_clean hf hn hsum]
  simpa [EventKind.diagnostic, checksumLabel] using hlabel

theorem tagger_clean_values (hn : fs.length = 10) (hsum : byteSum (f :: fs) % 256 = 255) (ss es : Sample) :
    let evs := terminatorEvents ss es f fs
    valuesOf .block evs = [11] ∧ valuesOf .goodChecksum evs = [0] ∧ valuesOf .blockType evs = [2] ∧
    valuesOf .blockTypeName evs = [2] ∧ (valuesOf .checksumField evs).length = 1 ∧
    (valuesOf .dataByte evs).map (· / 256) = List.range 9 := by
  rw [terminatorEvents, decodeBlock_tagger_clean hf hn hsum]
  simp [checksumLabel, valuesOf_payloadLabels_of_ne, payloadLabels_indexes, hn, List.range_eq_range']

/-- The verdict's values are those of `checkChecksum` alone: no other event of the step is a verdict. -/
theorem tagger_short_values (hn : fs.length = 9) (ss es : Sample) :
    let evs := terminatorEvents ss es f fs
    let verdict := checkChecksum (f :: fs) (lastFrame f fs) f.ss es
    valuesOf .badLength evs = [10] ∧ (valuesOf .dataByte evs).map (· / 256) = List.range 8 ∧
    valuesOf .goodChecksum evs = valuesOf .goodChecksum verdict ∧
    valuesOf .badChecksum evs = valuesOf .badChecksum verdict := by
  have hother : ∀ k ∈ [EventKind.badLength, .dataByte],
      valuesOf k (checkChecksum (f :: fs) (lastFrame f fs) f.ss es) = [] := by
    unfold checkChecksum
    split <;> simp
  rw [terminatorEvents, decodeBlock_tagger_short hf hn]
  simp [hother, checksumLabel, valuesOf_payloadLabels_of_ne, payloadLabels_indexes, hn, List.range_eq_range']

end TaggerStatus

/-! ## The obligations -/

/-- Settles O46: `decodeBlock_eq` at a block of one frame, which is its own checksum frame, and at a block whose last frame
closes a payload. -/
theorem sealedBlockEvents : Obligations.SealedBlockEvents := by
  refine ⟨fun f bss bes => ?_, fun first last payload bss bes => ?_⟩
  · simp only [decodeBlock_eq, lastFrame_alone, checkChecksum, checksumValue_eq, checksumLabel]
    simp [payloadLabels]
  · simp only [decodeBlock_eq, lastFrame_append, checkChecksum, checksumValue_eq, checksumLabel, List.dropLast_concat,
      payloadLabels_eq_mapIdx]
    simp

/-- Settles O47: the six rows of R179's table, evaluated. -/
theorem sealedBlockCornerCases : Obligations.SealedBlockCornerCases := by
  refine ⟨?_, ?_, ?_, ?_, ?_, ?_⟩ <;> decide

/-- Settles O48: the terminator's events read kind by kind; with ten frames the verdict is that of their sum. -/
theorem taggerStatusBlock : Obligations.TaggerStatusBlock := by
  intro ss es s f fs hr hs hb hf
  obtain ⟨t, hexec, hout⟩ := exec_terminator ss es hr hs hb
  refine ⟨t, terminatorEvents ss es f fs, hexec, hout, fun hn hsum => ?_, fun hn => ?_⟩
  · exact ⟨tagger_clean_no_diagnostic hf hn hsum ss es, tagger_clean_values hf hn hsum ss es⟩
  · obtain ⟨hlength, hindexes, hgood, hbad⟩ := tagger_short_values hf hn ss es
    refine ⟨hlength, hindexes, ?_⟩
    split
    case isTrue hsum =>
      rw [checkChecksum_of_valid hsum] at hgood hbad
      exact ⟨hgood, hbad⟩
    case isFalse hsum =>
      rw [checkChecksum_of_invalid hsum] at hgood hbad
      exact ⟨hgood, congrArg List.length hbad⟩

/-- Settles O49: BLOCK_END and `decodeBlock_length`. -/
theorem sealingStepEventCount : Obligations.SealingStepEventCount := by
  intro ss es s f fs hr hs hb
  obtain ⟨t, hexec, hout⟩ := exec_terminator ss es hr hs hb
  refine ⟨t, _, hexec, hout, ?_⟩
  rw [List.length_cons, decodeBlock_length, hb, List.length_cons]
  omega

end Sys2Proof.Machine

/-!
PROOFS. The exceptions family (60_exceptions.md): one item raises at most one error condition or seals one block (R198), and
a step without input keeps the state (R214, R236).
-/

namespace Sys2Proof.Machine

/-! ## The events that tell of a condition (R198) -/

/-- The events by which an item tells of a HalfCycleError, of a FramingError or of the sealing of a block (R198). -/
def conditionEvents (evs : List Event) : List Event :=
  evs.filter fun e => e.kind == .decodeAbort || e.kind == .framingError || e.kind == .block

theorem conditionEvents_append (evs evs' : List Event) :
    conditionEvents (evs ++ evs') = conditionEvents evs ++ conditionEvents evs' :=
  List.filter_append ..

/-- Events whose kinds tell of no condition. -/
theorem conditionEvents_of_kinds {evs : List Event} {kinds : List EventKind} (h : ∀ e ∈ evs, e.kind ∈ kinds)
    (hk : ∀ k ∈ kinds, (k == .decodeAbort || k == .framingError || k == .block) = false) : conditionEvents evs = [] :=
  List.filter_eq_nil_iff.mpr fun e he => by simp [hk e.kind (h e he)]

/-- The BLOCK_ERROR that goes with a FRAMING_ERROR is no second condition. -/
theorem conditionEvents_framingEvents_length (ss es : Sample) (bb : List Frame) :
    (conditionEvents (framingEvents ss es bb)).length = 1 := by
  cases bb <;> rfl

/-- The diagnostics of a sealed block are no further conditions. -/
theorem conditionEvents_terminator (ss es bss bes : Sample) (f : Frame) (fs : List Frame) :
    conditionEvents (⟨.blockEnd, ss, es, 1⟩ :: decodeBlock f fs bss bes) = [⟨.block, bss, bes, fs.length + 1⟩] := by
  obtain ⟨labels, hdecode, hkinds⟩ := decodeBlock_kinds f fs bss bes
  have hlabels : conditionEvents labels = [] := conditionEvents_of_kinds hkinds (by decide)
  calc conditionEvents (⟨.blockEnd, ss, es, 1⟩ :: decodeBlock f fs bss bes)
      = ⟨.block, bss, bes, fs.length + 1⟩ :: conditionEvents labels := by rw [hdecode]; rfl
    _ = [⟨.block, bss, bes, fs.length + 1⟩] := by rw [hlabels]

/-- A Bit raises a FramingError or seals a block, never both and neither twice (R149, R151). -/
theorem BitMove.conditionEvents_length_le_one {v : Bool} {ss es : Sample} {s t : State} {evs : List Event}
    (h : BitMove v ss es s t evs) : (conditionEvents evs).length ≤ 1 := by
  cases h with
  | marker _ hkinds => simp [conditionEvents_of_kinds hkinds (by decide)]
  | stopBit => exact Nat.zero_le 1
  | framingError => exact (conditionEvents_framingEvents_length ..).le
  | terminator => rw [conditionEvents_terminator]; rfl

/-- An instruction raises what its Bit raises or aborts once: RAW_BIT and the items that feed no Bit add nothing. -/
theorem FramerDelivery.conditionEvents_length_le_one {i : Instr} {s t : State} {evs : List Event}
    (h : FramerDelivery i s t evs) : (conditionEvents evs).length ≤ 1 := by
  cases h with
  | silent => exact Nat.zero_le 1
  | @bit v ss es raw bitEvs _ hraw hmove =>
    have hnone : conditionEvents raw = [] :=
      conditionEvents_of_kinds (kinds := [.rawBit]) (fun e he => by simp [hraw e he]) (by decide)
    rw [conditionEvents_append, hnone]
    exact hmove.conditionEvents_length_le_one
  | error => exact List.length_filter_le _ _

/-! ## The obligations -/

/-- Settles O58: a FAULT is the ConfigurationError of CFG, which delivers no event (`exec_faulted`); the events of any other
answer are those of one Bit or one Error (`exec_framerDelivery`). -/
theorem atMostOneConditionPerItem : Obligations.AtMostOneConditionPerItem := by
  intro i s t evs r h ho
  refine ⟨fun c hr => ?_, (exec_framerDelivery h ho).conditionEvents_length_le_one⟩
  obtain ⟨-, -, hevs, -⟩ := exec_faulted h (hr ▸ ho)
  exact hevs

/-- Settles O9: an empty input stream gives `step` nothing to take. -/
theorem idleWithoutInput : Obligations.IdleWithoutInput := fun _ hidle => step_idle hidle

end Sys2Proof.Machine

/-!
PROOFS. The reset family (70_reset_and_hazards.md): reset puts every state element at its reset value (R221), and it is the
only way out of `Running` and `Halted` (R220).
-/

namespace Sys2Proof.Machine

/-- Only CFG moves the session without a reset, and it leaves `Unconfigured` (R61, R220). -/
theorem step_session_of_not_reset {s t : State} (hs : s.session ≠ .unconfigured) (h : step s = .next t)
    (hreset : ∀ rest, s.inp ≠ .reset :: rest) : t.session = s.session := by
  rcases configurationFixedForTheRun s t h hreset with ⟨hkept, -⟩ | ⟨hu, -⟩
  · exact hkept
  · exact absurd hu hs

/-! ## The obligations -/

/-- Settles O8: the values of R221's table are those of `State.reset`, to which `step_reset` brings every element but the
streams; a step that is no reset keeps a session that has left `Unconfigured` (`step_session_of_not_reset`). -/
theorem resetGivesTheTableOfR221 : Obligations.ResetGivesTheTableOfR221 := by
  refine ⟨fun s rest hi => step_reset hi, fun s t hs h hmoved => ?_⟩
  by_contra hnone
  exact hmoved (step_session_of_not_reset hs h (not_exists.mp hnone))

end Sys2Proof.Machine

/-!
PROOFS. Where the model stops (log entries 4 and 6): a transition row that the framer state does not select, a data bit beyond
the frame buffer, and the terminator of an empty block.
-/

namespace Sys2Proof.Machine

/-- An instruction with a selector is a transition row at the framer state that selects it (R83). -/
theorem exec_eq_runRow_of_selector {i : Instr} {q : FramerState} (h : i.selector = some q) :
    ∃ rule : State → RuleResult, ∀ s, exec i s = runRow q rule s := by
  cases i with
  | cfg | edge | bit | err | errAny => exact nomatch h
  | _ =>
    obtain rfl := Option.some.inj h
    exact ⟨_, fun _ => rfl⟩

/-- The complement of `runRow_selected`. -/
theorem runRow_of_not_selected {row : FramerState} {rule : State → RuleResult} {s : State} (hr : ReadyForBits s)
    (hf : s.fs ≠ row) : runRow row rule s = .refused (.rowNotSelected row) := by
  simp [runRow, itemRefusal_bit_none.mpr hr, hf]

/-- With `ruleData_next`: the data-bit rule stops exactly where `FB_CNT` names no data bit (R39). -/
theorem ruleData_overrun {v : Bool} {ss es : Sample} {s : State} (hc : 8 < s.fbCnt.toNat) :
    ruleData v ss es s = .fault .frameBufferOverrun :=
  if_pos hc

theorem ruleBlockStop1_empty {ss es : Sample} {s : State} (hb : s.bb = []) :
    ruleBlockStop1 ss es s = .fault .emptyBlock := by
  simp [ruleBlockStop1, hb]

/-- BIT stops the model where the rule that its framer state selects does. -/
theorem exec_bit_of_framerBit_fault {v : Bool} {ss es : Sample} {s : State} {f : Fault} (hr : ReadyForBits s)
    (h : framerBit Config.blockCap v ss es s = .fault f) : exec (.bit v ss es) s = .fault f := by
  rw [exec_bit_of_ready hr, h]
  rfl

/-! ## The obligations -/

/-- Settles O41: every instruction with a selector is a row, which `runRow_of_not_selected` refuses; the two faults are those
of the rules that `Data` and `BlockStop` select. -/
theorem stopsOfTheModel : Obligations.StopsOfTheModel := by
  refine fun ss es s hr => ⟨fun i q hq hf => ?_, fun v hf hc => ?_, fun hf hb => ?_⟩
  · obtain ⟨rule, hrow⟩ := exec_eq_runRow_of_selector hq
    rw [hrow, runRow_of_not_selected hr hf]
  · have hrule : framerBit Config.blockCap v ss es s = ruleData v ss es s := by simp only [framerBit, hf]
    exact exec_bit_of_framerBit_fault hr (hrule.trans (ruleData_overrun hc))
  · have hrule : framerBit Config.blockCap true ss es s = ruleBlockStop1 ss es s := by simp only [framerBit, hf]
    exact exec_bit_of_framerBit_fault hr (hrule.trans (ruleBlockStop1_empty hb))

end Sys2Proof.Machine
